-- ==== Sys2Proof/Word.lean ====
section
/-! DEFINITION. The widths of the block's values: bytes, 32-bit stimulus and result words, 32-bit times. -/

namespace Sys2Proof

/-- A byte: 8 bits, bit 0 the least significant (00_scope R10). -/
abbrev Byte := BitVec 8

/-- A stimulus word or a result word: 32 bits (30_encoding R102, R104). -/
abbrev Word := BitVec 32

/-- A time or a time stamp: a 32-bit count of microseconds that wraps (00_scope R11). -/
abbrev Time := BitVec 32

end Sys2Proof
end

