-- ==== Sys2Proof/Syntax.lean ====
section
/-! DEFINITION. The operations of the block, one constructor per row of spec/opcode_table.json: the 14 that a stimulus
word can carry (30_encoding R105) and the 4 that the block fires itself (R106). Operands have the widths that decoding
keeps (R103). -/

namespace Sys2Proof

/-- One operation with its operands. -/
inductive Instr where
  /-- `INITIALIZE clockPin, readPin, writePin` (45_control R271). -/
  | initialise (clockPin readPin writePin : Byte)
  /-- `START trace` (45_control R272). -/
  | start (trace : Bool)
  /-- `POLL` (44_frame_interpreter R241). -/
  | poll
  /-- `PUSH code` (43_key_buffer R221). -/
  | push (code : Byte)
  /-- `REQ_BEEP count` (42_acoustic R191). -/
  | reqBeep (count : Byte)
  /-- `REQ_TONE count, continuous, interval` (42_acoustic R192). -/
  | reqTone (count : Byte) (continuous : Bool) (interval : Byte)
  /-- `REQ_BUZZER duration` (42_acoustic R193). -/
  | reqBuzzer (duration : Byte)
  /-- `KEY_READ` (44_frame_interpreter R247). -/
  | keyRead
  /-- `KEY_CLEAR` (44_frame_interpreter R248). -/
  | keyClear
  /-- `FRAME_READ` (44_frame_interpreter R246). -/
  | frameRead
  /-- `OVF_READ clear` (43_key_buffer R224). -/
  | ovfRead (clear : Bool)
  /-- `IND_READ index` (44_frame_interpreter R249). -/
  | indRead (index : BitVec 4)
  /-- `CLOCK_EDGE data` (40_bus_sampler R131). -/
  | clockEdge (data : Bool)
  /-- `ADVANCE dt` (40_bus_sampler R140). -/
  | advance (dt : BitVec 24)
  /-- `SILENCE_TIMEOUT`, internal (40_bus_sampler R138). -/
  | silenceTimeout
  /-- `ACOUSTIC_BOUNDARY`, internal (42_acoustic R198). -/
  | acousticBoundary
  /-- `FRAME_COMPLETE`, internal (40_bus_sampler R135). -/
  | frameComplete
  /-- `POP`, internal (43_key_buffer R222). -/
  | pop
  deriving DecidableEq, Repr

end Sys2Proof
end

