-- ==== Sys2Proof/WellFormed.lean ====
section
/-! DEFINITION. Which operations may be injected. The operand types of Instr leave no operand ill-formed (R103, R108:
every operand value is legal, clamped or a no-op), so the one check is that the operation is not an internal one: "they
cannot be injected" (30_encoding R106). The check of a configuration is `Config.valid` in Machine/Params.lean. -/

namespace Sys2Proof

/-- The three agents (00_scope R6). -/
inductive Agent where
  | bus | isr | host
  deriving DecidableEq, Repr

/-- The agent that performs an operation (00_scope R6, 30_encoding R105, R106). -/
def Instr.agent : Instr → Agent
  | .initialise _ _ _ => .host
  | .start _ => .host
  | .poll => .host
  | .push _ => .host
  | .reqBeep _ => .host
  | .reqTone _ _ _ => .host
  | .reqBuzzer _ => .host
  | .keyRead => .host
  | .keyClear => .host
  | .frameRead => .host
  | .ovfRead _ => .host
  | .indRead _ => .host
  | .clockEdge _ => .bus
  | .advance _ => .bus
  | .silenceTimeout => .isr
  | .acousticBoundary => .isr
  | .frameComplete => .isr
  | .pop => .isr

/-- An operation is well formed as a stimulus when an agent outside the ISR causes it (30_encoding R102, R106). -/
def Instr.wellFormed (i : Instr) : Bool := i.agent != .isr

end Sys2Proof
end

