-- ==== Sys2Proof/Decode.lean ====
section
/-! DEFINITION. The stimulus word `op[31:24] a[23:16] b[15:8] c[7:0]` (30_encoding R102): its decoder, total on every
word and rejecting by name, and its encoder. -/

namespace Sys2Proof

/-- Why a stimulus word stands for no operation: it is reserved (30_encoding R107). -/
inductive Reserved where
  /-- `op` is in no row of the opcode map (R105, R106). -/
  | unassigned (op : Byte)
  /-- `op` is the trace code of an internal operation (R106): such a word cannot be injected. -/
  | internalCode (op : Byte)
  deriving DecidableEq, Repr

/-- Field `op`, bits 31..24 (R102). -/
def opField (w : Word) : Byte := w.extractLsb' 24 8

/-- Field `a`, bits 23..16 (R102). -/
def aField (w : Word) : Byte := w.extractLsb' 16 8

/-- Field `b`, bits 15..8 (R102). -/
def bField (w : Word) : Byte := w.extractLsb' 8 8

/-- Field `c`, bits 7..0 (R102). -/
def cField (w : Word) : Byte := w.extractLsb' 0 8

/-- The operand of `ADVANCE`: `{a, b, c}`, bits 23..0 (R103). -/
def dtField (w : Word) : BitVec 24 := w.extractLsb' 0 24

/-- A one-bit operand: bit 0 of its field; the other bits are ignored (R103). -/
def bitOperand (field : Byte) : Bool := field.getLsbD 0

/-- The index operand of `IND_READ`: `a[3:0]` (R105); `a[7:4]` is ignored (R108). -/
def indexOperand (field : Byte) : BitVec 4 := field.extractLsb' 0 4

/-- The operation a word stands for, in the whole operation map: the injectable codes (R105) and the trace codes of the
internal operations (R106). Only `op` selects. -/
def decode (w : Word) : Except Reserved Instr :=
  match (opField w).toNat with
  | 0x01 => .ok (.initialise (aField w) (bField w) (cField w))
  | 0x02 => .ok (.start (bitOperand (aField w)))
  | 0x03 => .ok .poll
  | 0x04 => .ok (.push (aField w))
  | 0x05 => .ok (.reqBeep (aField w))
  | 0x06 => .ok (.reqTone (aField w) (bitOperand (bField w)) (cField w))
  | 0x07 => .ok (.reqBuzzer (aField w))
  | 0x08 => .ok .keyRead
  | 0x09 => .ok .keyClear
  | 0x0A => .ok .frameRead
  | 0x0B => .ok (.ovfRead (bitOperand (aField w)))
  | 0x0C => .ok (.indRead (indexOperand (aField w)))
  | 0x80 => .ok (.clockEdge (bitOperand (aField w)))
  | 0x81 => .ok (.advance (dtField w))
  | 0xC0 => .ok .silenceTimeout
  | 0xC1 => .ok .acousticBoundary
  | 0xC2 => .ok .frameComplete
  | 0xC3 => .ok .pop
  | _ => .error (.unassigned (opField w))

/-- The operation a STIMULUS word stands for. The internal codes are reserved there (30_encoding R106, R107). -/
def decodeStimulus (w : Word) : Except Reserved Instr :=
  match decode w with
  | .ok i => if i.wellFormed then .ok i else .error (.internalCode (opField w))
  | .error r => .error r

/-- The value of `op` for each operation (30_encoding R105, R106). -/
def Instr.opcode : Instr → Byte
  | .initialise _ _ _ => 0x01
  | .start _ => 0x02
  | .poll => 0x03
  | .push _ => 0x04
  | .reqBeep _ => 0x05
  | .reqTone _ _ _ => 0x06
  | .reqBuzzer _ => 0x07
  | .keyRead => 0x08
  | .keyClear => 0x09
  | .frameRead => 0x0A
  | .ovfRead _ => 0x0B
  | .indRead _ => 0x0C
  | .clockEdge _ => 0x80
  | .advance _ => 0x81
  | .silenceTimeout => 0xC0
  | .acousticBoundary => 0xC1
  | .frameComplete => 0xC2
  | .pop => 0xC3

/-- A one-bit operand as a field: bit 0 of the field, the ignored bits 0. -/
def bitField (x : Bool) : Byte := if x then 1 else 0

/-- The three operand fields `{a, b, c}` of an operation, the ignored bits 0 (R103, R105). -/
def Instr.operands : Instr → BitVec 24
  | .initialise clockPin readPin writePin => clockPin ++ readPin ++ writePin
  | .start trace => bitField trace ++ (0 : BitVec 16)
  | .push code => code ++ (0 : BitVec 16)
  | .reqBeep count => count ++ (0 : BitVec 16)
  | .reqTone count continuous interval => count ++ bitField continuous ++ interval
  | .reqBuzzer duration => duration ++ (0 : BitVec 16)
  | .ovfRead clear => bitField clear ++ (0 : BitVec 16)
  | .indRead index => (0 : BitVec 4) ++ index ++ (0 : BitVec 16)
  | .clockEdge data => bitField data ++ (0 : BitVec 16)
  | .advance dt => dt
  | .poll => 0
  | .keyRead => 0
  | .keyClear => 0
  | .frameRead => 0
  | .silenceTimeout => 0
  | .acousticBoundary => 0
  | .frameComplete => 0
  | .pop => 0

/-- The word of an operation: `{op, a, b, c}` (R102). -/
def encode (i : Instr) : Word := i.opcode ++ i.operands

/-- The operation this decoder reads from the low `nbits` bits of `w`, numbered as spec/opcode_table.json numbers them
(bit 0 the least significant bit of the one 32-bit word). -/
def decodeTableWord (nbits w : Nat) : Option Instr :=
  match decode (BitVec.ofNat 32 (w % 2 ^ nbits)) with
  | .ok i => some i
  | .error _ => none

end Sys2Proof
end

