-- ==== Sys2Proof/Config.lean ====
section
/-! DEFINITION. The configuration record `CFG` of 00_scope R7: what the spec leaves OPEN, as data. The three
functions of R7 (`LIGHT_ROUTE`, `KEY_CLASS`, `ALARM_ACK`) are held as finite tables, so that a State that carries its
configuration stays plain data (log 2); Machine/Params.lean reads them. -/

namespace Sys2Proof

/-- Where the status byte of a frame goes (`LIGHT_ROUTE`, 00_scope R7). -/
inductive Route where
  | none | status | statusBlink | zone | zoneBlink
  deriving DecidableEq, Repr

/-- The class of a key code (`KEY_CLASS`, 00_scope R7; 41_key_encoder R166). -/
inductive KeyClass where
  | short | long | alarm
  deriving DecidableEq, Repr

/-- `FRAME_BITS`: bit positions per frame, fixed at 16 (00_scope R7, 30_encoding R109). -/
def frameBits : Nat := 16

/-- The configuration record of one block (00_scope R7). Durations are in microseconds. -/
structure Config where
  /-- `KB_CAPACITY`: Key Buffer entries. -/
  kbCapacity : Nat
  /-- `SILENCE_WINDOW_US`: the bus-silence window. -/
  silenceWindowUs : Nat
  /-- `TIME_UNIT_US`: the unit of tone interval and buzzer duration. -/
  timeUnitUs : Nat
  /-- `BEEP_ON_US`: one beep or tone assertion. -/
  beepOnUs : Nat
  /-- `BEEP_GAP_US`: the gap between assertions. -/
  beepGapUs : Nat
  /-- `ASSERT_ON`: the key-code bit value for which the encoder asserts the line. -/
  assertOn : Bool
  /-- `MOD_IDLE`: the Module Frame byte that means that no key is pressed. -/
  modIdle : Byte
  /-- `LIGHT_ROUTE`: the command bytes that are routed; every byte not listed goes to `None`. -/
  lightRoutes : List (Byte × Route)
  /-- `KEY_CLASS`: the key codes that are not `Short`, with their class; every code not listed is `Short`. -/
  keyClasses : List (Byte × KeyClass)
  /-- `LONG_HOLD_US`: the hold time of a `Long` key. -/
  longHoldUs : Nat
  /-- `ALARM_MIN_HOLD_US`: the minimum hold of an alarm key. -/
  alarmMinHoldUs : Nat
  /-- `ALARM_REISSUE_US`: the re-issue suppression window. -/
  alarmReissueUs : Nat
  /-- `ALARM_ACK`: its value on every pair of Command Frame bytes that `alarmAckExceptions` does not list. -/
  alarmAckDefault : Bool
  /-- `ALARM_ACK`: the pairs on which it has the opposite value. -/
  alarmAckExceptions : List (Byte × Byte)
  /-- `MIN_CMD_INTERVAL_US`: the host's pacing interval; no rule of the machine reads it (70_reset R322). -/
  minCmdIntervalUs : Nat
  deriving DecidableEq, Repr

/-- `CFG_REF`, the spec's own test configuration (00_scope R7): "not a claim about the hardware". It stands in
`State.reset` only (log 1, DESIGN CHOICE); every statement is about any configuration that keeps the constraints. -/
def Config.ref : Config where
  kbCapacity := 4
  silenceWindowUs := 2000
  timeUnitUs := 1000
  beepOnUs := 100
  beepGapUs := 50
  assertOn := true
  modIdle := 0xFF
  lightRoutes := [(0x05, .status), (0x06, .statusBlink), (0x07, .zone), (0x08, .zoneBlink)]
  keyClasses := [(0xE0, .long), (0xF0, .alarm)]
  longHoldUs := 5000
  alarmMinHoldUs := 3000
  alarmReissueUs := 4000
  alarmAckDefault := true
  alarmAckExceptions := []
  minCmdIntervalUs := 20000

end Sys2Proof
end

