-- ==== Sys2Proof/Machine/Params.lean ====
section
/-! DEFINITION. Reading the configuration record: the functions `LIGHT_ROUTE`, `KEY_CLASS`, `ALARM_ACK` and `hold`, and
the constraints of 00_scope R7. -/

namespace Sys2Proof

/-- `LIGHT_ROUTE(c0)` (00_scope R7, 44_frame_interpreter R240). -/
def Config.lightRoute (c : Config) (c0 : Byte) : Route := (c.lightRoutes.lookup c0).getD .none

/-- `KEY_CLASS(code)` (00_scope R7, 41_key_encoder R166). -/
def Config.keyClass (c : Config) (code : Byte) : KeyClass := (c.keyClasses.lookup code).getD .short

/-- `ALARM_ACK(c0, c1)` (00_scope R7, 41_key_encoder R168). -/
def Config.alarmAck (c : Config) (c0 c1 : Byte) : Bool :=
  c.alarmAckDefault ^^ c.alarmAckExceptions.contains (c0, c1)

/-- `P = BEEP_ON_US + BEEP_GAP_US` (42_acoustic R196). -/
def Config.beepPeriod (c : Config) : Nat := c.beepOnUs + c.beepGapUs

/-- `hold(code)`: 0 for a `Short` key, `LONG_HOLD_US` for a `Long` one (41_key_encoder R166). The rule gives `hold` for
these two classes only; a code of class `Alarm` never enters the Key Buffer, and its hold is `ALARM_MIN_HOLD_US`. -/
def Config.hold (c : Config) (code : Byte) : Nat :=
  match c.keyClass code with
  | .short => 0
  | .long => c.longHoldUs
  | .alarm => c.alarmMinHoldUs

/-- The constraints of 00_scope R7. A configuration that breaks one is refused (R8, U5). -/
def Config.valid (c : Config) : Bool :=
  decide (1 ≤ c.kbCapacity) && decide (c.kbCapacity ≤ 127)
    && decide (1 ≤ c.silenceWindowUs) && decide (c.silenceWindowUs < 2 ^ 31)
    && decide (1 ≤ c.timeUnitUs) && decide (255 * c.timeUnitUs + c.beepGapUs < 2 ^ 31)
    && decide (7 * c.beepOnUs + 6 * c.beepGapUs ≤ c.timeUnitUs)
    && decide (1 ≤ c.beepOnUs) && decide (128 * (c.beepOnUs + c.beepGapUs) < 2 ^ 31)
    && decide (1 ≤ c.beepGapUs)
    && decide (c.lightRoute 0x05 = .status)
    && decide (c.longHoldUs < 2 ^ 31) && decide (c.alarmMinHoldUs < 2 ^ 31)
    && decide (c.alarmReissueUs < 2 ^ 31)

end Sys2Proof
end

