-- ==== Sys2Proof/Machine/State.lean ====
section
/-! DEFINITION. The state of the block (10_state R22 to R31), grouped by sub-block (00_scope R2), the reasons a step can
stop, and the reset state (70_reset_and_hazards R310). Every field is plain data. -/

namespace Sys2Proof.Machine

/-- Two bytes, indexed by one bit: `CMD_SR`, `MOD_SR`, `CMD_FRAME`, `MOD_FRAME`, `ST`, `BL` (10_state R23, R31). -/
structure BytePair where
  /-- Element 0. -/
  b0 : Byte
  /-- Element 1. -/
  b1 : Byte
  deriving DecidableEq, Repr

/-- `TX_SRC`: the source of the key being sent (10_state R26); its value 3 "never occurs" (U15). -/
inductive TxSrc where
  | none | fifo | alarm
  deriving DecidableEq, Repr

/-- `AC_TYPE`: the type of the current acoustic request (10_state R29). -/
inductive AcType where
  | none | beep | tone | buzzer
  deriving DecidableEq, Repr

/-- One indicator register (10_state R30); its value 3 "never occurs" (U15). -/
inductive Indicator where
  | off | on | blinking
  deriving DecidableEq, Repr

/-- Control and time state (10_state R22). -/
structure Control where
  /-- `NOW`: the current time, advanced only by `ADVANCE`. -/
  now : Time
  /-- `BOUND`: 1 after `INITIALIZE`. -/
  bound : Bool
  /-- `RUNNING`: 1 after `START`. -/
  running : Bool
  /-- `TRACE_EN`: a trace sink was requested at `START`; no rule reads it. -/
  traceEn : Bool
  /-- `PIN_CLK`, recorded only. -/
  pinClk : Byte
  /-- `PIN_RD`, recorded only. -/
  pinRd : Byte
  /-- `PIN_WR`, recorded only. -/
  pinWr : Byte
  deriving DecidableEq, Repr

/-- Bus Sampler: shift registers, frame buffers, cursors, flags and stamps (10_state R23 to R25). -/
structure Sampler where
  /-- `CMD_SR[0..1]`: the panel bytes under construction. -/
  cmdSr : BytePair
  /-- `MOD_SR[0..1]`: the module bytes under construction. -/
  modSr : BytePair
  /-- `CMD_FRAME[0..1]`: the Command Frame buffer. -/
  cmdFrame : BytePair
  /-- `MOD_FRAME[0..1]`: the Module Frame buffer. -/
  modFrame : BytePair
  /-- `CYC`: edges taken in the current frame cycle. -/
  cyc : BitVec 5
  /-- `BIT_CNT`: completed bit positions. -/
  bitCnt : BitVec 5
  /-- `BYTE_IDX`: the current byte index. -/
  byteIdx : BitVec 1
  /-- `EXP_BITS`: the constant 16. -/
  expBits : BitVec 5
  /-- `FRAME_READY`: a complete frame has not been polled. -/
  frameReady : Bool
  /-- `LAST_EDGE`: `NOW` at the last edge taken, or at `START`. -/
  lastEdge : Time
  /-- `SIL_ARMED`: the bus-silence countdown is running. -/
  silArmed : Bool
  deriving DecidableEq, Repr

/-- Key Encoder latches (10_state R26). -/
structure Encoder where
  /-- `TX_SRC`: the source of the key being sent. -/
  txSrc : TxSrc
  /-- `TX_KEY`: the latched key code. -/
  txKey : Byte
  /-- `TX_T0`: `NOW` at the start of the press. -/
  txT0 : Time
  /-- `TX_WINDOW`: a response window is open. -/
  txWindow : Bool
  /-- `WR_KEY`: the encoder's contribution to `wr`. -/
  wrKey : Bool
  deriving DecidableEq, Repr

/-- Alarm-key path (10_state R27). -/
structure AlarmPath where
  /-- `ALARM_DETECTED`: an alarm key waits or is being held. -/
  detected : Bool
  /-- `ALARM_CODE`: its code. -/
  code : Byte
  /-- `ALARM_RESP_PENDING`: the panel has not acknowledged yet. -/
  respPending : Bool
  /-- `ALARM_T_ISSUE`: `NOW` when the response became pending. -/
  tIssue : Time
  deriving DecidableEq, Repr

/-- The cells of `KB_MEM`, the only memory array of the block (10_state R28), as (index, byte) pairs. -/
abbrev Memory := List Host.Cell

/-- Key Buffer (10_state R28). -/
structure KeyBuffer where
  /-- `KB_MEM`: the cells that do not hold 0x00, indices strictly rising; an unlisted index reads 0x00 (R310). -/
  mem : Memory
  /-- `KB_WR`: pushes modulo `2 * KB_CAPACITY`. -/
  wr : Byte
  /-- `KB_RD`: pops modulo `2 * KB_CAPACITY`. -/
  rd : Byte
  /-- `OVERFLOW`: a code has been rejected (sticky). -/
  overflow : Bool
  deriving DecidableEq, Repr

/-- Acoustic Sequencer: the current request and the waiting one (10_state R29). -/
structure Acoustic where
  /-- `AC_TYPE`. -/
  acType : AcType
  /-- `AC_N`: count or duration. -/
  n : Byte
  /-- `AC_INT`: tone interval. -/
  interval : BitVec 4
  /-- `AC_CONT`: the continuous-tone option. -/
  cont : Bool
  /-- `AC_T0`: `NOW` at the start of the request, or of the tone's current period. -/
  t0 : Time
  /-- `ACQ_VALID`: a request of the same type waits. -/
  qValid : Bool
  /-- `ACQ_N`. -/
  qN : Byte
  /-- `ACQ_INT`. -/
  qInterval : BitVec 4
  /-- `ACQ_CONT`. -/
  qCont : Bool
  deriving DecidableEq, Repr

/-- Frame Interpreter: indicators, light registers and flags (10_state R30, R31). -/
structure Interpreter where
  /-- `IND[0..15]`. -/
  ind : Vector Indicator 16
  /-- `ST[0..1]`: the last status byte of each group. -/
  st : BytePair
  /-- `BL[0..1]`: the last blink byte of each group. -/
  bl : BytePair
  /-- `IND_CHANGED`: the indicators the last true `POLL` changed. -/
  indChanged : BitVec 16
  /-- `STARTUP`: no `POLL` has returned true yet. -/
  startup : Bool
  /-- `KEY_AVAILABLE`. -/
  keyAvailable : Bool
  /-- `KEY_VALUE`. -/
  keyValue : Byte
  deriving DecidableEq, Repr

/-- An internal operation that an operation fired, with the value of `NOW` at which it fired (30_encoding R106: the
internal operations have codes "so that a model can log them in a trace"); `POP` with what it returned (43_key_buffer
R222; `none` is its signal "empty"). -/
inductive Event where
  | silenceTimeout (at_ : Time)
  | acousticBoundary (at_ : Time)
  | frameComplete (at_ : Time)
  | pop (at_ : Time) (entry : Option Byte)
  deriving DecidableEq, Repr

/-- The whole state of one block, its constant configuration (60_exceptions R289) and the model's own three fields. -/
structure State where
  /-- `CFG`: no operation changes it (20_memory R83). -/
  cfg : Config
  /-- Control and time. -/
  ctl : Control
  /-- Bus Sampler. -/
  smp : Sampler
  /-- Key Encoder latches. -/
  enc : Encoder
  /-- Alarm-key path. -/
  alm : AlarmPath
  /-- Key Buffer. -/
  kb : KeyBuffer
  /-- Acoustic Sequencer. -/
  ac : Acoustic
  /-- Frame Interpreter. -/
  itp : Interpreter
  /-- The model's own: the stimulus words still to come, oldest first (log 3). -/
  inputs : List Word
  /-- The model's own: the result word `R` of the last operation (30_encoding R104, log 4). -/
  result : Word
  /-- The model's own: the internal operations the last operation fired, in order (30_encoding R106, log 4). -/
  fired : List Event
  deriving DecidableEq, Repr

/-- "The block raises no exception, no fault" and "no operation has a failing outcome" (60_exceptions R280): there is no
fault, so nobody raises one, and a proof that none occurs is immediate (safe). -/
inductive Fault where
  deriving DecidableEq, Repr

/-- Why a step has no meaning. -/
inductive Refusal where
  /-- Raised by an arm of exec for an operation without a meaning; no arm does (safe). -/
  | notModelled (mnemonic : String)
  /-- Raised by every operation when `CFG` breaks a constraint of 00_scope R7: "the model refuses it" (R8, U5) (safe). -/
  | invalidConfiguration
  /-- Raised by every operation in a state with an encoding that never occurs (U15: "refuse"); no run reaches one
  (log 6) (safe). -/
  | unreachableState
  deriving DecidableEq, Repr

/-- Reset of the control and time state (70_reset_and_hazards R310). -/
def Control.reset : Control where
  now := 0
  bound := false
  running := false
  traceEn := false
  pinClk := 0
  pinRd := 0
  pinWr := 0

/-- A pair of zero bytes. -/
def BytePair.zero : BytePair := ⟨0, 0⟩

/-- Reset of the Bus Sampler (R310). -/
def Sampler.reset : Sampler where
  cmdSr := .zero
  modSr := .zero
  cmdFrame := .zero
  modFrame := .zero
  cyc := 0
  bitCnt := 0
  byteIdx := 0
  expBits := BitVec.ofNat 5 frameBits
  frameReady := false
  lastEdge := 0
  silArmed := false

/-- Reset of the Key Encoder (R310). -/
def Encoder.reset : Encoder where
  txSrc := .none
  txKey := 0
  txT0 := 0
  txWindow := false
  wrKey := false

/-- Reset of the alarm path (R310). -/
def AlarmPath.reset : AlarmPath where
  detected := false
  code := 0
  respPending := false
  tIssue := 0

/-- Reset of the Key Buffer: empty, every cell 0x00 (R310). -/
def KeyBuffer.reset : KeyBuffer where
  mem := []
  wr := 0
  rd := 0
  overflow := false

/-- Reset of the Acoustic Sequencer (R310). -/
def Acoustic.reset : Acoustic where
  acType := .none
  n := 0
  interval := 0
  cont := false
  t0 := 0
  qValid := false
  qN := 0
  qInterval := 0
  qCont := false

/-- Reset of the Frame Interpreter: every indicator `Off`, `STARTUP = 1` (R310). -/
def Interpreter.reset : Interpreter where
  ind := Vector.replicate 16 .off
  st := .zero
  bl := .zero
  indChanged := 0
  startup := true
  keyAvailable := false
  keyValue := 0

/-- The reset state of a block with configuration `c` (R310), with no stimulus waiting. -/
def State.resetWith (c : Config) : State where
  cfg := c
  ctl := .reset
  smp := .reset
  enc := .reset
  alm := .reset
  kb := .reset
  ac := .reset
  itp := .reset
  inputs := []
  result := 0
  fired := []

/-- The machine right after power-on reset (R310, R311), with the spec's test configuration (log 1, DESIGN CHOICE). -/
def State.reset : State := .resetWith .ref

/-- Replaces the control and time state. -/
def State.withCtl (s : State) (x : Control) : State := { s with ctl := x }
/-- Replaces the Bus Sampler. -/
def State.withSmp (s : State) (x : Sampler) : State := { s with smp := x }
/-- Replaces the Key Encoder latches. -/
def State.withEnc (s : State) (x : Encoder) : State := { s with enc := x }
/-- Replaces the alarm path. -/
def State.withAlm (s : State) (x : AlarmPath) : State := { s with alm := x }
/-- Replaces the Key Buffer. -/
def State.withKb (s : State) (x : KeyBuffer) : State := { s with kb := x }
/-- Replaces the Acoustic Sequencer. -/
def State.withAc (s : State) (x : Acoustic) : State := { s with ac := x }
/-- Replaces the Frame Interpreter. -/
def State.withItp (s : State) (x : Interpreter) : State := { s with itp := x }
/-- Replaces the stimulus stream. -/
def State.withInputs (s : State) (x : List Word) : State := { s with inputs := x }
/-- Replaces the result word. -/
def State.withResult (s : State) (x : Word) : State := { s with result := x }
/-- Replaces the list of fired internal operations. -/
def State.withFired (s : State) (x : List Event) : State := { s with fired := x }

end Sys2Proof.Machine
end

