-- ==== Sys2Proof/Machine/Ops.lean ====
section
/-! DEFINITION. The named operations over state that the meanings share: time, byte pairs, the Key Buffer storage, the
log of fired internal operations, the two refusals, and the frame of one operation (`operate`). -/

namespace Sys2Proof.Machine

/-- `elapsed(T) = (NOW - T) mod 2^32` (00_scope R11). -/
def State.elapsed (s : State) (t : Time) : Nat := (s.ctl.now - t).toNat

/-- `NOW <- (NOW + n) mod 2^32` (40_bus_sampler R140). -/
def State.tick (s : State) (n : Nat) : State :=
  s.withCtl { s.ctl with now := s.ctl.now + BitVec.ofNat 32 n }

/-- Element `i` of a pair of bytes (00_scope R12). -/
def BytePair.get (p : BytePair) (i : BitVec 1) : Byte := if i = 0#1 then p.b0 else p.b1

/-- Writing element `i` of a pair of bytes (00_scope R12). -/
def BytePair.set (p : BytePair) (i : BitVec 1) (v : Byte) : BytePair :=
  if i = 0#1 then { p with b0 := v } else { p with b1 := v }

/-- `{v[6:0], data}`: bit 7 is discarded and `data` becomes bit 0 (40_bus_sampler R131, 20_memory R70). -/
def shiftIn (v : Byte) (data : Bool) : Byte := v.extractLsb' 0 7 ++ BitVec.ofBool data

/-- `MemRead(i, 1)` of the Key Buffer storage (00_scope R12). A cell that nothing has written since reset reads 0x00
(70_reset_and_hazards R310). -/
def Memory.read : Memory → Nat → Byte
  | [], _ => 0#8
  | (a, v) :: m, i => if a = i then v else Memory.read m i

/-- `MemWrite(i, 1, v)` of the Key Buffer storage (00_scope R12), keeping the canonical form. -/
def Memory.write : Memory → Nat → Byte → Memory
  | [], i, v => if v = 0#8 then [] else [(i, v)]
  | (a, w) :: m, i, v =>
    if i < a then (if v = 0#8 then (a, w) :: m else (i, v) :: (a, w) :: m)
    else if i = a then (if v = 0#8 then m else (i, v) :: m)
    else (a, w) :: Memory.write m i v

/-- The canonical form from index `lo` on: indices strictly rising and at least `lo`, no entry 0x00. -/
def Memory.wfFrom : Nat → Memory → Bool
  | _, [] => true
  | lo, (a, v) :: m => decide (lo ≤ a) && decide (v ≠ 0#8) && Memory.wfFrom (a + 1) m

/-- The canonical form of the Key Buffer storage: equal contents are equal lists. -/
def Memory.wf (m : Memory) : Bool := Memory.wfFrom 0 m

/-- Every listed index is below `n`: no cell outside `KB_MEM[0..n-1]` (10_state R28). -/
def Memory.below (m : Memory) (n : Nat) : Bool := m.all fun cell => decide (cell.1 < n)

/-- Logs a fired internal operation (30_encoding R106). -/
def State.log (s : State) (e : Event) : State := s.withFired (s.fired ++ [e])

/-- `kb_count = (KB_WR - KB_RD) mod (2 * KB_CAPACITY)` (10_state R28); both pointers are below `2 * KB_CAPACITY`. -/
def KeyBuffer.count (k : KeyBuffer) (capacity : Nat) : Nat :=
  (k.wr.toNat + 2 * capacity - k.rd.toNat) % (2 * capacity)

/-- `kb_count` of the state's Key Buffer (10_state R28). -/
def State.kbCount (s : State) : Nat := s.kb.count s.cfg.kbCapacity

/-- The acoustic registers hold no request of zero length: `AC_N = 0` while `AC_TYPE != None` never occurs (U15), nor
does a tone interval of 0, nor a waiting request of either kind (R195; U5: such a request would not let `ADVANCE` end). -/
def Acoustic.formed (a : Acoustic) : Bool :=
  match a.acType with
  | .none => true
  | .tone =>
    decide (a.n ≠ 0#8) && decide (a.interval ≠ 0#4)
      && (!a.qValid || (decide (a.qN ≠ 0#8) && decide (a.qInterval ≠ 0#4)))
  | .beep => decide (a.n ≠ 0#8) && (!a.qValid || decide (a.qN ≠ 0#8))
  | .buzzer => decide (a.n ≠ 0#8) && (!a.qValid || decide (a.qN ≠ 0#8))

/-- The state has none of the encodings that never occur (93_implementation_defined U15): `BIT_CNT > 16`, a pointer at
or above `2 * KB_CAPACITY`, `kb_count > KB_CAPACITY`, a request of zero length. The values 3 of `TX_SRC` and of an
indicator are excluded by their types. -/
def State.formed (s : State) : Bool :=
  decide (s.smp.bitCnt.toNat ≤ 16)
    && decide (s.kb.wr.toNat < 2 * s.cfg.kbCapacity) && decide (s.kb.rd.toNat < 2 * s.cfg.kbCapacity)
    && decide (s.kbCount ≤ s.cfg.kbCapacity)
    && s.ac.formed

/-- Stores the result word `R` of an operation (30_encoding R104). -/
def finish (p : State × Word) : State := p.1.withResult p.2

/-- One operation as one atomic step (00_scope R6): refused under a configuration that breaks a constraint (R8) and in a
state that no run reaches (U15); else the operation runs, with an empty log, and its result word is stored. -/
def operate (s : State) (op : State → State × Word) : Host.Outcome State Fault Refusal :=
  if s.cfg.valid then
    if s.formed then .next (finish (op (s.withFired [])))
    else .refused .unreachableState
  else .refused .invalidConfiguration

/-- An operation whose result word is 0: "every other operation" of 30_encoding R104. -/
def silent (op : State → State) (s : State) : State × Word := (op s, 0)

/-- `zext_32` of one bit (00_scope R10). -/
def bitWord (x : Bool) : Word := if x then 1 else 0

end Sys2Proof.Machine
end

