-- ==== Sys2Proof/Machine/Flags.lean ====
section
/-! DEFINITION. The conditions that set and clear the flags of 10_state R32, and the decode function of an indicator. -/

namespace Sys2Proof.Machine

/-- The Key Buffer is full iff `kb_count = KB_CAPACITY` (10_state R28). -/
def State.kbFull (s : State) : Bool := decide (s.kbCount = s.cfg.kbCapacity)

/-- The alarm key may be taken: `ALARM_DETECTED = 1 and ALARM_RESP_PENDING = 0` (41_key_encoder R162). -/
def AlarmPath.ready (a : AlarmPath) : Bool := a.detected && !a.respPending

/-- The hold of a buffered key is met (41_key_encoder R165, R166). -/
def State.fifoHoldMet (s : State) : Bool := decide (s.cfg.hold s.enc.txKey ≤ s.elapsed s.enc.txT0)

/-- The hold of an alarm key is met (41_key_encoder R165). -/
def State.alarmHoldMet (s : State) : Bool := decide (s.cfg.alarmMinHoldUs ≤ s.elapsed s.enc.txT0)

/-- The condition of `alarm_ack_check` (41_key_encoder R168): a response is pending, the suppression window is over and
the frame just completed acknowledges it. -/
def State.alarmAcked (s : State) : Bool :=
  s.alm.respPending && decide (s.cfg.alarmReissueUs ≤ s.elapsed s.alm.tIssue)
    && s.cfg.alarmAck s.smp.cmdFrame.b0 s.smp.cmdFrame.b1

/-- `light(s, b)`: the state of an indicator from its status bit and its blink bit (44_frame_interpreter R242). -/
def light (status blink : Bool) : Indicator :=
  match status, blink with
  | false, _ => .off
  | true, false => .on
  | true, true => .blinking

/-- The 2-bit code of an indicator: 0 `Off`, 1 `On`, 2 `Blinking` (10_state R30, 44_frame_interpreter R249). -/
def Indicator.code : Indicator → BitVec 2
  | .off => 0
  | .on => 1
  | .blinking => 2

end Sys2Proof.Machine
end

