-- ==== Sys2Proof/Machine/Operands.lean ====
section
/-! DEFINITION. Range handling of the acoustic operands: zero makes the request a no-op, a value above the maximum is
clamped (30_encoding R108, 42_acoustic R195). One-bit and four-bit operands are assembled by Decode.lean (R103). -/

namespace Sys2Proof.Machine

/-- The arguments of `ac_accept` (42_acoustic R194). -/
structure Request where
  /-- The type of the request. -/
  acType : AcType
  /-- Count or duration. -/
  n : Byte
  /-- Tone interval, 0 for the other types. -/
  interval : BitVec 4
  /-- The continuous-tone option. -/
  cont : Bool
  deriving DecidableEq, Repr

/-- `min(v, max)` on bytes (00_scope R13). -/
def clamp (v max : Byte) : Byte := if max < v then max else v

/-- The request of `REQ_BEEP count`: none for 0, at most 128 (42_acoustic R191, R195). -/
def beepRequest (count : Byte) : Option Request :=
  if count = 0#8 then none else some ⟨.beep, clamp count 128#8, 0#4, false⟩

/-- The request of `REQ_TONE count, continuous, interval`: none if count or interval is 0, at most 7 and 15
(42_acoustic R192, R195). -/
def toneRequest (count : Byte) (continuous : Bool) (interval : Byte) : Option Request :=
  if count = 0#8 ∨ interval = 0#8 then none
  else some ⟨.tone, clamp count 7#8, (clamp interval 15#8).setWidth 4, continuous⟩

/-- The request of `REQ_BUZZER duration`: none for 0 (42_acoustic R193, R195). -/
def buzzerRequest (duration : Byte) : Option Request :=
  if duration = 0#8 then none else some ⟨.buzzer, duration, 0#4, false⟩

end Sys2Proof.Machine
end

