-- ==== Sys2Proof/Machine/Acoustic.lean ====
section
/-! DEFINITION. The Acoustic Sequencer (42_acoustic): the three requests, the waveform, `ACOUSTIC_BOUNDARY`. -/

namespace Sys2Proof.Machine

/-- `ac_len()`: the length of the current request, or of one period of a tone (42_acoustic R196). It is used only while
`AC_TYPE != None`. -/
def Acoustic.length (c : Config) (a : Acoustic) : Nat :=
  match a.acType with
  | .none => 0
  | .beep => a.n.toNat * c.beepPeriod
  | .buzzer => a.n.toNat * c.timeUnitUs + c.beepGapUs
  | .tone => a.interval.toNat * c.timeUnitUs

/-- `wr_ac()` at `e` microseconds into the request or period (42_acoustic R197). -/
def Acoustic.wave (c : Config) (a : Acoustic) (e : Nat) : Bool :=
  match a.acType with
  | .none => false
  | .beep => decide (e % c.beepPeriod < c.beepOnUs)
  | .buzzer => decide (e < a.n.toNat * c.timeUnitUs)
  | .tone => decide (e < a.n.toNat * c.beepPeriod) && decide (e % c.beepPeriod < c.beepOnUs)

/-- `wr_ac()` of a state (42_acoustic R197). -/
def State.wrAc (s : State) : Bool := s.ac.wave s.cfg (s.elapsed s.ac.t0)

/-- The request waits for the one in flight, in place of any that waited (42_acoustic R194). -/
def Acoustic.enqueue (a : Acoustic) (r : Request) : Acoustic :=
  { a with qValid := true, qN := r.n, qInterval := r.interval, qCont := r.cont }

/-- The request starts now, and a waiting one is discarded (42_acoustic R194). -/
def Acoustic.begin (now : Time) (r : Request) : Acoustic where
  acType := r.acType
  n := r.n
  interval := r.interval
  cont := r.cont
  t0 := now
  qValid := false
  qN := 0#8
  qInterval := 0#4
  qCont := false

/-- `ac_accept` (42_acoustic R194). -/
def acAccept (r : Request) (s : State) : State :=
  if s.ctl.running then
    if s.ac.acType = r.acType then s.withAc (s.ac.enqueue r)
    else s.withAc (.begin s.ctl.now r)
  else s

/-- A request operation: out-of-range zeros are no-ops (42_acoustic R195). -/
def acRequest (r : Option Request) (s : State) : State :=
  match r with
  | none => s
  | some r => acAccept r s

/-- What `ACOUSTIC_BOUNDARY` does to the registers: promote the waiting request, or start the next period of a tone, or
end (42_acoustic R198). -/
def Acoustic.boundary (now : Time) (a : Acoustic) : Acoustic :=
  if a.qValid then
    { a with
      n := a.qN, interval := a.qInterval, cont := a.qCont, t0 := now,
      qValid := false, qN := 0#8, qInterval := 0#4, qCont := false }
  else if a.acType = .tone then { a with t0 := now }
  else { a with acType := .none, n := 0#8, interval := 0#4, cont := false }

/-- `ACOUSTIC_BOUNDARY` fired (42_acoustic R198). -/
def fireAcousticBoundary (s : State) : State :=
  (s.withAc (s.ac.boundary s.ctl.now)).log (.acousticBoundary s.ctl.now)

/-- `REQ_BEEP count` (42_acoustic R191). -/
def execReqBeep (count : Byte) (s : State) : Host.Outcome State Fault Refusal :=
  operate s (silent (acRequest (beepRequest count)))

/-- `REQ_TONE count, continuous, interval` (42_acoustic R192). -/
def execReqTone (count : Byte) (continuous : Bool) (interval : Byte) (s : State) :
    Host.Outcome State Fault Refusal :=
  operate s (silent (acRequest (toneRequest count continuous interval)))

/-- `REQ_BUZZER duration` (42_acoustic R193). -/
def execReqBuzzer (duration : Byte) (s : State) : Host.Outcome State Fault Refusal :=
  operate s (silent (acRequest (buzzerRequest duration)))

/-- `ACOUSTIC_BOUNDARY`, internal (42_acoustic R198). -/
def execAcousticBoundary (s : State) : Host.Outcome State Fault Refusal := operate s (silent fireAcousticBoundary)

end Sys2Proof.Machine
end

