-- ==== Sys2Proof/Machine/Control.lean ====
section
/-! DEFINITION. The control operations (45_control): `INITIALIZE` and `START`. -/

namespace Sys2Proof.Machine

/-- The control registers after `INITIALIZE`: at reset but for `NOW`, `BOUND` and the recorded pins (45_control R271). -/
def Control.bind (clockPin readPin writePin : Byte) (x : Control) : Control :=
  { Control.reset with now := x.now, bound := true, pinClk := clockPin, pinRd := readPin, pinWr := writePin }

/-- The effect of `INITIALIZE`: every state element of 10_state but `NOW` takes its reset value, then the pins and `BOUND`
are set (45_control R271). The configuration and the stimulus stream are no state elements of the block (10_state R34). -/
def initialiseBlock (clockPin readPin writePin : Byte) (s : State) : State where
  cfg := s.cfg
  ctl := s.ctl.bind clockPin readPin writePin
  smp := .reset
  enc := .reset
  alm := .reset
  kb := .reset
  ac := .reset
  itp := .reset
  inputs := s.inputs
  result := s.result
  fired := s.fired

/-- The effect of `START trace`: none unless bound and not running (45_control R272). -/
def startBlock (trace : Bool) (s : State) : State :=
  if s.ctl.bound = false ∨ s.ctl.running then s
  else (s.withCtl { s.ctl with running := true, traceEn := trace }).withSmp
    { s.smp with lastEdge := s.ctl.now, silArmed := true }

/-- `INITIALIZE clockPin, readPin, writePin` (45_control R271). -/
def execInitialise (clockPin readPin writePin : Byte) (s : State) : Host.Outcome State Fault Refusal :=
  operate s (silent (initialiseBlock clockPin readPin writePin))

/-- `START trace` (45_control R272). -/
def execStart (trace : Bool) (s : State) : Host.Outcome State Fault Refusal := operate s (silent (startBlock trace))

end Sys2Proof.Machine
end

