-- ==== Sys2Proof/Machine/Interpreter.lean ====
section
/-! DEFINITION. The Frame Interpreter (44_frame_interpreter): `POLL` and the read operations. -/

namespace Sys2Proof.Machine

/-- Where a light byte goes: its group, 0 for the status lights and 1 for the zones, and whether it is the blink byte
(44_frame_interpreter R243). -/
def Route.target : Route → Option (BitVec 1 × Bool)
  | .none => none
  | .status => some (0, false)
  | .statusBlink => some (0, true)
  | .zone => some (1, false)
  | .zoneBlink => some (1, true)

/-- `(s[i], b[i])` of a group's pair of light bytes. -/
def lightPair (status blink : Byte) (i : Nat) : Bool × Bool := (status.getLsbD i, blink.getLsbD i)

/-- The new state of indicator `j` of the group, whose old state is `old`: rewritten when seeding or when its pair of bits
changed (44_frame_interpreter R243). -/
def refresh (seed : Bool) (previous current : Bool × Bool) (old : Indicator) : Indicator :=
  if seed then light current.1 current.2
  else if current ≠ previous then light current.1 current.2
  else old

/-- Whether the update of R243 sets the indicator's `IND_CHANGED` bit: never when seeding, else iff the pair of bits
changed and gave a different value. -/
def changes (seed : Bool) (previous current : Bool × Bool) (old : Indicator) : Bool :=
  !seed && decide (current ≠ previous) && decide (light current.1 current.2 ≠ old)

/-- A Boolean for each of the 16 indicators, as a mask: bit `j` is `f j`. -/
def maskOf (f : Nat → Bool) : BitVec 16 := BitVec.ofBoolListLE ((List.range 16).map f)

/-- `apply_lights` on group `g`, with the value `v` loaded into its status or blink register (44_frame_interpreter R243).
Indicator `j` belongs to the group iff `j div 8 = g`, at bit position `j mod 8`. -/
def Interpreter.applyLights (g : BitVec 1) (isBlink : Bool) (v : Byte) (p : Interpreter) : Interpreter :=
  let ps := p.st.get g
  let pb := p.bl.get g
  let ns := if isBlink then ps else v
  let nb := if isBlink then v else pb
  { p with
    ind := Vector.ofFn fun j =>
      if j.val / 8 = g.toNat then
        refresh p.startup (lightPair ps pb (j.val % 8)) (lightPair ns nb (j.val % 8)) p.ind[j]
      else p.ind[j]
    indChanged := p.indChanged ||| maskOf fun j =>
      decide (j / 8 = g.toNat)
        && changes p.startup (lightPair ps pb (j % 8)) (lightPair ns nb (j % 8)) (p.ind[j]?.getD .off)
    st := p.st.set g ns
    bl := p.bl.set g nb }

/-- Step (b) of `POLL`: the light byte `c1` goes where the command byte routes it (44_frame_interpreter R241). -/
def Interpreter.lights (r : Route) (c1 : Byte) (p : Interpreter) : Interpreter :=
  match Route.target r with
  | none => p
  | some (g, isBlink) => p.applyLights g isBlink c1

/-- Step (c) of `POLL`: a module byte other than `MOD_IDLE` is the available key (44_frame_interpreter R241, R250). -/
def Interpreter.echo (idle m0 : Byte) (p : Interpreter) : Interpreter :=
  if m0 ≠ idle then { p with keyValue := m0, keyAvailable := true } else p

/-- The interpretation of the frame in the buffers (44_frame_interpreter R241). -/
def interpretFrame (s : State) : Interpreter :=
  let p := { s.itp with indChanged := 0 }
  let p := p.lights (s.cfg.lightRoute s.smp.cmdFrame.b0) s.smp.cmdFrame.b1
  let p := p.echo s.cfg.modIdle s.smp.modFrame.b0
  { p with startup := false }

/-- The effect of `POLL` when a frame is ready (44_frame_interpreter R241). -/
def consumeFrame (s : State) : State :=
  (s.withItp (interpretFrame s)).withSmp { s.smp with frameReady := false }

/-- `POLL` with its result (44_frame_interpreter R241). -/
def pollFrame (s : State) : State × Word := if s.smp.frameReady then (consumeFrame s, 1) else (s, 0)

/-- `{CMD_FRAME[0], CMD_FRAME[1], MOD_FRAME[0], MOD_FRAME[1]}` (44_frame_interpreter R246). -/
def Sampler.frameWord (p : Sampler) : Word :=
  p.cmdFrame.b0 ++ p.cmdFrame.b1 ++ p.modFrame.b0 ++ p.modFrame.b1

/-- `R[8] = KEY_AVAILABLE`, `R[7:0] = KEY_VALUE` (44_frame_interpreter R247). -/
def Interpreter.keyWord (p : Interpreter) : Word := (0 : BitVec 23) ++ BitVec.ofBool p.keyAvailable ++ p.keyValue

/-- `R[1:0] = IND[index]`, `R[2] = IND_CHANGED[index]` (44_frame_interpreter R249). -/
def Interpreter.indicatorWord (p : Interpreter) (index : BitVec 4) : Word :=
  (0 : BitVec 29) ++ BitVec.ofBool (p.indChanged.getLsbD index.toNat)
    ++ (p.ind[index.toNat]?.getD .off).code

/-- `KEY_READ` with its result (44_frame_interpreter R247). -/
def readKey (s : State) : State × Word := (s, s.itp.keyWord)

/-- `KEY_AVAILABLE <- 0`; `KEY_VALUE` is kept (44_frame_interpreter R248). -/
def clearKey (s : State) : State := s.withItp { s.itp with keyAvailable := false }

/-- `FRAME_READ` with its result (44_frame_interpreter R246). -/
def readFrame (s : State) : State × Word := (s, s.smp.frameWord)

/-- `IND_READ index` with its result (44_frame_interpreter R249). -/
def readIndicator (index : BitVec 4) (s : State) : State × Word := (s, s.itp.indicatorWord index)

/-- `POLL` (44_frame_interpreter R241). -/
def execPoll (s : State) : Host.Outcome State Fault Refusal := operate s pollFrame

/-- `KEY_READ` (44_frame_interpreter R247). -/
def execKeyRead (s : State) : Host.Outcome State Fault Refusal := operate s readKey

/-- `KEY_CLEAR`: `KEY_AVAILABLE <- 0`, `KEY_VALUE` is kept (44_frame_interpreter R248). -/
def execKeyClear (s : State) : Host.Outcome State Fault Refusal :=
  operate s (silent clearKey)

/-- `FRAME_READ` (44_frame_interpreter R246). -/
def execFrameRead (s : State) : Host.Outcome State Fault Refusal := operate s readFrame

/-- `IND_READ index` (44_frame_interpreter R249). -/
def execIndRead (index : BitVec 4) (s : State) : Host.Outcome State Fault Refusal :=
  operate s (readIndicator index)

end Sys2Proof.Machine
end

