-- ==== Sys2Proof/Machine/KeyBuffer.lean ====
section
/-! DEFINITION. The Key Buffer (43_key_buffer): `PUSH`, peek, `POP`, `OVF_READ`. -/

namespace Sys2Proof.Machine

/-- `peek()`: the oldest entry, `KB_MEM[KB_RD mod KB_CAPACITY]` (43_key_buffer R223). -/
def State.peek (s : State) : Byte := s.kb.mem.read (s.kb.rd.toNat % s.cfg.kbCapacity)

/-- A pointer moved on by one: `(p + 1) mod (2 * KB_CAPACITY)` (43_key_buffer R221, R222). -/
def nextPointer (p : Byte) (capacity : Nat) : Byte := BitVec.ofNat 8 ((p.toNat + 1) % (2 * capacity))

/-- The alarm half of `PUSH`: the slot takes the code, or `OVERFLOW` is set if it is occupied (43_key_buffer R221). -/
def pushAlarm (code : Byte) (s : State) : State :=
  if s.alm.detected then s.withKb { s.kb with overflow := true }
  else s.withAlm { s.alm with detected := true, code := code }

/-- The ring half of `PUSH`: the code is written at `KB_WR` and the pointer moves on, or `OVERFLOW` is set if the ring is
full (43_key_buffer R221). -/
def pushRing (code : Byte) (s : State) : State :=
  if s.kbFull then s.withKb { s.kb with overflow := true }
  else s.withKb { s.kb with
    mem := s.kb.mem.write (s.kb.wr.toNat % s.cfg.kbCapacity) code,
    wr := nextPointer s.kb.wr s.cfg.kbCapacity }

/-- The effect of `PUSH code` (43_key_buffer R221). -/
def pushKey (code : Byte) (s : State) : State :=
  if s.cfg.keyClass code = .alarm then pushAlarm code s else pushRing code s

/-- What `POP` returns: the oldest entry, or `none` for "empty" (43_key_buffer R222). -/
def State.popped (s : State) : Option Byte := if s.kbCount = 0 then none else some s.peek

/-- The effect of `POP`: the read pointer moves on unless the ring is empty; the cell is not cleared (43_key_buffer
R222). What it returned stands in the log. -/
def popKey (s : State) : State :=
  if s.kbCount = 0 then s.log (.pop s.ctl.now s.popped)
  else (s.withKb { s.kb with rd := nextPointer s.kb.rd s.cfg.kbCapacity }).log (.pop s.ctl.now s.popped)

/-- The effect of `OVF_READ clear` (43_key_buffer R224). -/
def clearOverflow (clear : Bool) (s : State) : State :=
  if clear then s.withKb { s.kb with overflow := false } else s

/-- `OVF_READ clear` with its result, the flag before the clear (43_key_buffer R224). -/
def readOverflow (clear : Bool) (s : State) : State × Word := (clearOverflow clear s, bitWord s.kb.overflow)

/-- The abstract content `q` of the Key Buffer, oldest first (43_key_buffer R225). -/
def State.queue (s : State) : List Byte :=
  (List.range s.kbCount).map fun k => s.kb.mem.read ((s.kb.rd.toNat + k) % s.cfg.kbCapacity)

/-- `PUSH code` (43_key_buffer R221). -/
def execPush (code : Byte) (s : State) : Host.Outcome State Fault Refusal := operate s (silent (pushKey code))

/-- `OVF_READ clear`: the result is the flag before the clear (43_key_buffer R224). -/
def execOvfRead (clear : Bool) (s : State) : Host.Outcome State Fault Refusal :=
  operate s (readOverflow clear)

/-- `POP`, internal (43_key_buffer R222); its result word is 0 (30_encoding R104), the entry it returns stands in the
log. -/
def execPop (s : State) : Host.Outcome State Fault Refusal := operate s (silent popKey)

end Sys2Proof.Machine
end

