-- ==== Sys2Proof/Machine/Encoder.lean ====
section
/-! DEFINITION. The Key Encoder (41_key_encoder): it has no operation of its own; `CLOCK_EDGE`, `FRAME_COMPLETE` and
`SILENCE_TIMEOUT` call these procedures. -/

namespace Sys2Proof.Machine

/-- The latches with a press begun now (41_key_encoder R162). -/
def Encoder.latch (e : Encoder) (src : TxSrc) (key : Byte) (now : Time) : Encoder :=
  { e with txSrc := src, txKey := key, txT0 := now }

/-- The first half of `select_key()`: with no press in progress, the alarm key is taken before the oldest buffered key
(41_key_encoder R162). -/
def State.chooseKey (s : State) : Encoder :=
  if s.enc.txSrc = .none then
    if s.alm.ready then s.enc.latch .alarm s.alm.code s.ctl.now
    else if 0 < s.kbCount then s.enc.latch .fifo s.peek s.ctl.now
    else s.enc
  else s.enc

/-- `select_key()` (41_key_encoder R162). -/
def selectKey (s : State) : State :=
  s.withEnc { s.chooseKey with txWindow := decide (s.chooseKey.txSrc ≠ .none) }

/-- The value `enc_odd()` gives `WR_KEY` in bit position `k` (41_key_encoder R161, R163). -/
def Encoder.drive (c : Config) (e : Encoder) (k : Nat) : Bool :=
  decide (k < 8) && e.txWindow && (e.txKey.getLsbD (7 - k) == c.assertOn)

/-- The second half of `enc_odd()`: `WR_KEY` takes the key bit of the bit position (41_key_encoder R161). -/
def driveKey (s : State) : State :=
  s.withEnc { s.enc with wrKey := s.enc.drive s.cfg s.smp.bitCnt.toNat }

/-- `enc_odd()` (41_key_encoder R161). -/
def encOdd (s : State) : State := driveKey (if s.smp.bitCnt = 0#5 then selectKey s else s)

/-- `TX_SRC <- None` (41_key_encoder R165). -/
def endPress (s : State) : State := s.withEnc { s.enc with txSrc := .none }

/-- The alarm registers when an alarm key has been held long enough (41_key_encoder R165). -/
def AlarmPath.issue (a : AlarmPath) (now : Time) : AlarmPath :=
  { a with detected := false, respPending := true, tIssue := now }

/-- The decision of `close_window()`: pop a buffered key or retire an alarm key whose hold is met (41_key_encoder
R165). -/
def retireKey (s : State) : State :=
  if s.enc.txSrc = .fifo ∧ s.fifoHoldMet then endPress (popKey s)
  else if s.enc.txSrc = .alarm ∧ s.alarmHoldMet then endPress (s.withAlm (s.alm.issue s.ctl.now))
  else s

/-- `TX_WINDOW <- 0` (41_key_encoder R165, R169). -/
def shutWindow (s : State) : State := s.withEnc { s.enc with txWindow := false }

/-- `close_window()` (41_key_encoder R165). -/
def closeWindow (s : State) : State := shutWindow (retireKey s)

/-- `WR_KEY <- 0` (41_key_encoder R164, R169). -/
def releaseKey (s : State) : State := s.withEnc { s.enc with wrKey := false }

/-- `enc_even()` (41_key_encoder R164). -/
def encEven (s : State) : State :=
  if s.smp.bitCnt = 8#5 ∧ s.enc.txWindow then closeWindow (releaseKey s) else releaseKey s

/-- `alarm_ack_check()` (41_key_encoder R168). -/
def alarmAckCheck (s : State) : State :=
  if s.alarmAcked then s.withAlm { s.alm with respPending := false } else s

end Sys2Proof.Machine
end

