-- ==== Sys2Proof/Machine/Sampler.lean ====
section
/-! DEFINITION. The Bus Sampler (40_bus_sampler): `CLOCK_EDGE`, `FRAME_COMPLETE`, `SILENCE_TIMEOUT`, `ADVANCE`. -/

namespace Sys2Proof.Machine

/-- The hand-off: the shift registers are copied to the frame buffers and `FRAME_READY` is set (40_bus_sampler R135,
20_memory R75). -/
def Sampler.capture (p : Sampler) : Sampler :=
  { p with cmdFrame := p.cmdSr, modFrame := p.modSr, frameReady := true }

/-- `FRAME_COMPLETE` fired (40_bus_sampler R135). -/
def fireFrameComplete (s : State) : State :=
  let s := alarmAckCheck (s.withSmp s.smp.capture)
  (s.withSmp { s.smp with bitCnt := 0#5, byteIdx := 0#1 }).log (.frameComplete s.ctl.now)

/-- The silence countdown is restarted by an edge taken (40_bus_sampler R131, R139). -/
def stampEdge (s : State) : State := s.withSmp { s.smp with lastEdge := s.ctl.now, silArmed := true }

/-- A panel-window edge after the encoder's action: the sample goes to `CMD_SR` (40_bus_sampler R131, R132). -/
def samplePanel (data : Bool) (s : State) : State :=
  s.withSmp { s.smp with
    cmdSr := s.smp.cmdSr.set s.smp.byteIdx (shiftIn (s.smp.cmdSr.get s.smp.byteIdx) data),
    cyc := s.smp.cyc + 1#5 }

/-- A module-window edge after the encoder's action: the sample goes to `MOD_SR` and the bit cursor moves on, with the
byte cursor at a byte boundary (40_bus_sampler R131). -/
def sampleModule (data : Bool) (s : State) : State :=
  let bits := s.smp.bitCnt + 1#5
  s.withSmp { s.smp with
    modSr := s.smp.modSr.set s.smp.byteIdx (shiftIn (s.smp.modSr.get s.smp.byteIdx) data),
    bitCnt := bits,
    byteIdx := if bits.toNat % 8 = 0 then s.smp.byteIdx + 1#1 else s.smp.byteIdx }

/-- `CYC <- (CYC + 1) mod 32` (40_bus_sampler R131). -/
def nextCycle (s : State) : State := s.withSmp { s.smp with cyc := s.smp.cyc + 1#5 }

/-- `FRAME_COMPLETE` fires in the step in which `BIT_CNT` reaches `EXP_BITS` (40_bus_sampler R131, R135). -/
def completeFrame (s : State) : State := if s.smp.bitCnt = s.smp.expBits then fireFrameComplete s else s

/-- The effect of `CLOCK_EDGE data` (40_bus_sampler R131); none while `RUNNING = 0` (R142). -/
def clockEdge (data : Bool) (s : State) : State :=
  if s.ctl.running then
    let s := stampEdge s
    if s.smp.cyc.getLsbD 0 = false then samplePanel data (encEven s)
    else nextCycle (completeFrame (sampleModule data (encOdd s)))
  else s

/-- The cursors at zero, and the countdown disarmed (40_bus_sampler R138). -/
def Sampler.realign (p : Sampler) : Sampler := { p with cyc := 0#5, bitCnt := 0#5, byteIdx := 0#1, silArmed := false }

/-- `SILENCE_TIMEOUT` fired (40_bus_sampler R138). -/
def fireSilenceTimeout (s : State) : State :=
  (shutWindow (releaseKey (s.withSmp s.smp.realign))).log (.silenceTimeout s.ctl.now)

/-- `r_s`: the time left to the silence deadline, `none` for `INF` (40_bus_sampler R140). A deadline already passed, in
a state that no run reaches, is due now (log 7). -/
def State.silenceDue (s : State) : Option Nat :=
  if s.ctl.running ∧ s.smp.silArmed then some (s.cfg.silenceWindowUs + 1 - s.elapsed s.smp.lastEdge) else none

/-- `r_a`: the time left to the acoustic boundary, `none` for `INF` (40_bus_sampler R140; log 7). -/
def State.acousticDue (s : State) : Option Nat :=
  if s.ac.acType = .none then none else some (s.ac.length s.cfg - s.elapsed s.ac.t0)

/-- `min(r_s, r_a)`, where `none` is `INF` (40_bus_sampler R140). -/
def earliest : Option Nat → Option Nat → Option Nat
  | some a, some b => some (min a b)
  | some a, none => some a
  | none, r => r

/-- The operations due at the instant `r` of one turn of the loop fire, `SILENCE_TIMEOUT` first (40_bus_sampler R140,
R141). -/
def fireDue (silence acoustic : Option Nat) (r : Nat) (s : State) : State :=
  let s := if silence = some r then fireSilenceTimeout s else s
  if acoustic = some r then fireAcousticBoundary s else s

/-- The loop of `ADVANCE` with `rem` microseconds left (40_bus_sampler R140). `fuel` bounds its turns: every turn but
the first takes at least one microsecond, so `rem + 2` is enough (log 7). -/
def advanceLoop : Nat → Nat → State → State
  | 0, rem, s => s.tick rem
  | fuel + 1, rem, s =>
    match earliest s.silenceDue s.acousticDue with
    | none => s.tick rem
    | some r =>
      if rem < r then s.tick rem
      else advanceLoop fuel (rem - r) (fireDue s.silenceDue s.acousticDue r (s.tick r))

/-- The effect of `ADVANCE dt` (40_bus_sampler R140). -/
def advanceTime (dt : BitVec 24) (s : State) : State := advanceLoop (dt.toNat + 2) dt.toNat s

/-- `CLOCK_EDGE data` (40_bus_sampler R131). -/
def execClockEdge (data : Bool) (s : State) : Host.Outcome State Fault Refusal := operate s (silent (clockEdge data))

/-- `ADVANCE dt` (40_bus_sampler R140). -/
def execAdvance (dt : BitVec 24) (s : State) : Host.Outcome State Fault Refusal := operate s (silent (advanceTime dt))

/-- `SILENCE_TIMEOUT`, internal (40_bus_sampler R138). -/
def execSilenceTimeout (s : State) : Host.Outcome State Fault Refusal := operate s (silent fireSilenceTimeout)

/-- `FRAME_COMPLETE`, internal (40_bus_sampler R135). -/
def execFrameComplete (s : State) : Host.Outcome State Fault Refusal := operate s (silent fireFrameComplete)

end Sys2Proof.Machine
end

