-- ==== Sys2Proof/Machine/Dispatch.lean ====
section
/-! DEFINITION. The meaning of every operation, one arm per constructor of Instr. -/

namespace Sys2Proof.Machine

def exec (i : Instr) (s : State) : Host.Outcome State Fault Refusal :=
  match i with
  | .initialise clockPin readPin writePin => Sys2Proof.Machine.execInitialise clockPin readPin writePin s
  | .start trace => Sys2Proof.Machine.execStart trace s
  | .poll => Sys2Proof.Machine.execPoll s
  | .push code => Sys2Proof.Machine.execPush code s
  | .reqBeep count => Sys2Proof.Machine.execReqBeep count s
  | .reqTone count continuous interval => Sys2Proof.Machine.execReqTone count continuous interval s
  | .reqBuzzer duration => Sys2Proof.Machine.execReqBuzzer duration s
  | .keyRead => Sys2Proof.Machine.execKeyRead s
  | .keyClear => Sys2Proof.Machine.execKeyClear s
  | .frameRead => Sys2Proof.Machine.execFrameRead s
  | .ovfRead clear => Sys2Proof.Machine.execOvfRead clear s
  | .indRead index => Sys2Proof.Machine.execIndRead index s
  | .clockEdge data => Sys2Proof.Machine.execClockEdge data s
  | .advance dt => Sys2Proof.Machine.execAdvance dt s
  | .silenceTimeout => Sys2Proof.Machine.execSilenceTimeout s
  | .acousticBoundary => Sys2Proof.Machine.execAcousticBoundary s
  | .frameComplete => Sys2Proof.Machine.execFrameComplete s
  | .pop => Sys2Proof.Machine.execPop s

end Sys2Proof.Machine
end

