-- ==== Sys2Proof/Machine/Stimulus.lean ====
section
/-! DEFINITION. The stimulus stream: taking the oldest word, placing one, and what a reserved word does. -/

namespace Sys2Proof.Machine

/-- The stimulus word the next step takes, if any (30_encoding R102, log 3). -/
def State.nextWord (s : State) : Option Word := s.inputs.head?

/-- The state with the oldest stimulus word taken from the stream (log 3). -/
def State.dropWord (s : State) : State := s.withInputs s.inputs.tail

/-- A reserved stimulus word: "The block does nothing and returns R = 0; no state changes" (30_encoding R107). -/
def reservedWord (s : State) : Host.Outcome State Fault Refusal := operate s (silent id)

/-- The state with the word of the low `nbits` bits of `w` placed in front of the stream, so that the very next step takes
it. -/
def State.placeWord (s : State) (nbits w : Nat) : State :=
  s.withInputs (BitVec.ofNat 32 (w % 2 ^ nbits) :: s.inputs)

end Sys2Proof.Machine
end

