-- ==== Sys2Proof/Machine/Step.lean ====
section
/-! DEFINITION. One step of the machine: the oldest stimulus word is taken and its operation runs whole (00_scope R6). -/

namespace Sys2Proof.Machine

/-- One step: with no stimulus nothing happens (log 3); a reserved word does nothing (30_encoding R107); any other word's
operation runs, with the word taken from the stream. -/
def step (s : State) : Host.Outcome State Fault Refusal :=
  match s.nextWord with
  | none => .next s
  | some w =>
    match Sys2Proof.decodeStimulus w with
    | .ok i => exec i s.dropWord
    | .error _ => reservedWord s.dropWord

/-- The state in which the next step takes the stimulus word of the low `nbits` bits of `w` (log 3). -/
def State.withFetchWord (s : State) (nbits w : Nat) : State := s.placeWord nbits w

end Sys2Proof.Machine
end

