-- ==== Sys2Proof/Machine/Ports.lean ====
section
/-! DEFINITION. The output ports, functions of the state and not stored (10_state R20, R34). -/

namespace Sys2Proof.Machine

/-- The write pin: idle unless running; the key pattern in an open response window, the acoustic waveform otherwise
(41_key_encoder R170). -/
def State.wr (s : State) : Bool :=
  if s.ctl.running then (if s.enc.txWindow then s.enc.wrKey else s.wrAc) else false

/-- The continuous-tone output (42_acoustic R203). -/
def State.toneCont (s : State) : Bool := s.ctl.running && decide (s.ac.acType = .tone) && s.ac.cont

end Sys2Proof.Machine
end

