-- ==== Sys2Proof/Machine/Trace.lean ====
section
/-! DEFINITION. The spec's trace notation: the trace words of the internal operations (30_encoding R106), the
pseudo-operations and their expansions (R111), and the textual syntax of one line (R110). No step of the machine uses this
file; it turns a written trace into stimulus words. -/

namespace Sys2Proof.Machine

/-- The internal operation of an entry of the log. -/
def Event.instr : Event → Instr
  | .silenceTimeout _ => .silenceTimeout
  | .acousticBoundary _ => .acousticBoundary
  | .frameComplete _ => .frameComplete
  | .pop _ _ => .pop

/-- The trace word of a fired internal operation (30_encoding R106). -/
def Event.word (e : Event) : Word := encode e.instr

/-- A pseudo-operation (30_encoding R111). -/
inductive Pseudo where
  /-- `FRAME c0, c1, m0, m1, dt`. -/
  | frame (c0 c1 m0 m1 : Byte) (dt : BitVec 24)
  /-- `EDGES n, d, dt`. -/
  | edges (n : Nat) (d : Bool) (dt : BitVec 24)
  /-- `SILENCE`. -/
  | silence
  /-- `WAIT us`. -/
  | wait (us : Nat)
  deriving DecidableEq, Repr

/-- The bit that bit position `k` of a frame carries: bit `7 - (k mod 8)` of byte 0 for `k < 8`, of byte 1 above
(30_encoding R100, R111). -/
def frameBit (b0 b1 : Byte) (k : Nat) : Bool := (if k < 8 then b0 else b1).getLsbD (7 - k % 8)

/-- The four stimuli of bit position `k` of a `FRAME` (30_encoding R111). -/
def bitPosition (c0 c1 m0 m1 : Byte) (dt : BitVec 24) (k : Nat) : List Instr :=
  [.advance dt, .clockEdge (frameBit c0 c1 k), .advance dt, .clockEdge (frameBit m0 m1 k)]

/-- `ADVANCE` operations whose operands sum to `us`, each at most `0xFFFFFF` (30_encoding R111): the longest ones first
(log 12). -/
def waitOps (us : Nat) : List Instr :=
  List.replicate (us / 0xFFFFFF) (.advance 0xFFFFFF)
    ++ (if us % 0xFFFFFF = 0 then [] else [.advance (BitVec.ofNat 24 (us % 0xFFFFFF))])

/-- The expansion of a pseudo-operation (30_encoding R111). `SILENCE` is `ADVANCE SILENCE_WINDOW_US + 1`, split as a
`WAIT` where the 24-bit operand cannot hold the sum (log 12). -/
def Pseudo.expand (c : Config) : Pseudo → List Instr
  | .frame c0 c1 m0 m1 dt => (List.range 16).flatMap (bitPosition c0 c1 m0 m1 dt)
  | .edges n d dt => (List.replicate n [Instr.advance dt, Instr.clockEdge d]).flatten
  | .silence => waitOps (c.silenceWindowUs + 1)
  | .wait us => waitOps us

/-- The mnemonics that a line may name, with their `op` (30_encoding R105). -/
def mnemonicCodes : List (String × Byte) :=
  [("INITIALIZE", 0x01), ("START", 0x02), ("POLL", 0x03), ("PUSH", 0x04), ("REQ_BEEP", 0x05), ("REQ_TONE", 0x06),
    ("REQ_BUZZER", 0x07), ("KEY_READ", 0x08), ("KEY_CLEAR", 0x09), ("FRAME_READ", 0x0A), ("OVF_READ", 0x0B),
    ("IND_READ", 0x0C), ("CLOCK_EDGE", 0x80), ("ADVANCE", 0x81)]

/-- The value of a digit in base 16. -/
def digitValue (ch : Char) : Option Nat :=
  if '0' ≤ ch ∧ ch ≤ '9' then some (ch.toNat - '0'.toNat)
  else if 'a' ≤ ch ∧ ch ≤ 'f' then some (ch.toNat - 'a'.toNat + 10)
  else if 'A' ≤ ch ∧ ch ≤ 'F' then some (ch.toNat - 'A'.toNat + 10)
  else none

/-- The digits of a number in a base, most significant first, after the value read so far. -/
def digits (base : Nat) : Nat → List Char → Option Nat
  | acc, [] => some acc
  | acc, ch :: rest =>
    match digitValue ch with
    | none => none
    | some d => if d < base then digits base (base * acc + d) rest else none

/-- A number, decimal or `0x` hexadecimal (30_encoding R110). DESIGN CHOICE (log 17): hexadecimal digits of either case count,
leading zeros are allowed, and a prefix without digits or a prefix `0X` is no number. -/
def number : List Char → Option Nat
  | [] => none
  | ['0', 'x'] => none
  | '0' :: 'x' :: rest => digits 16 0 rest
  | text => digits 10 0 text

/-- A text without the spaces at its ends. DESIGN CHOICE (log 17): no other character counts as a space. -/
def trim (text : List Char) : List Char :=
  ((text.dropWhile (· = ' ')).reverse.dropWhile (· = ' ')).reverse

/-- The operands of a line: numbers separated by commas, none for an empty text (30_encoding R110). DESIGN CHOICE (log 17):
an operand place left empty between commas, or beside one (`REQ_TONE 2, , 4`; `PUSH 1,`), is no omitted operand but makes
the line malformed, and it is rejected; only operands missing at the end are omitted ones. -/
def operandList (text : List Char) : Option (List Nat) :=
  if text = [] then some [] else (text.splitOn ',').mapM fun t => number (trim t)

/-- Cuts a text at the first `->` (30_encoding R110: a result is written after it). What stands after it is read as one
number; DESIGN CHOICE (log 17): a line whose `->` is followed by anything else is rejected. -/
def cutArrow : List Char → List Char × Option (List Char)
  | [] => ([], none)
  | '-' :: '>' :: rest => ([], some rest)
  | ch :: rest => (ch :: (cutArrow rest).1, (cutArrow rest).2)

/-- Operand `k` as a value of `n` bits; an omitted operand is 0, a value that does not fit is rejected (30_encoding
R110). -/
def operandAt (n : Nat) (args : List Nat) (k : Nat) : Option (BitVec n) :=
  if args.getD k 0 < 2 ^ n then some (BitVec.ofNat n (args.getD k 0)) else none

/-- The stimulus word of an operation written with its operands in the order of 30_encoding R105: `ADVANCE` takes 24 bits,
every other operation the fields `a`, `b`, `c` (R102, R103). DESIGN CHOICE (log 14), the spec is silent on operands beyond
those a mnemonic takes: a fourth one is rejected, a second or third one of `ADVANCE` is dropped, and one of another
operation goes into its ignored field. -/
def assembleOp (op : Byte) (args : List Nat) : Option Word :=
  if 3 < args.length then none
  else if op = 0x81 then (operandAt 24 args 0).map fun dt => op ++ dt
  else do
    let a ← operandAt 8 args 0
    let b ← operandAt 8 args 1
    let c ← operandAt 8 args 2
    some (op ++ (a ++ b ++ c))

/-- A pseudo-operation written with its operands (30_encoding R111). DESIGN CHOICE (log 14), the spec is silent on operands
beyond those it takes: they are dropped, however many; bit 0 of the operand `d` of `EDGES` counts. -/
def assemblePseudo (name : String) (args : List Nat) : Option Pseudo :=
  if name = "FRAME" then do
    let c0 ← operandAt 8 args 0
    let c1 ← operandAt 8 args 1
    let m0 ← operandAt 8 args 2
    let m1 ← operandAt 8 args 3
    let dt ← operandAt 24 args 4
    some (.frame c0 c1 m0 m1 dt)
  else if name = "EDGES" then do
    let d ← operandAt 8 args 1
    let dt ← operandAt 24 args 2
    some (.edges (args.getD 0 0) (bitOperand d) dt)
  else if name = "SILENCE" then some .silence
  else if name = "WAIT" then some (.wait (args.getD 0 0))
  else none

/-- A line of a trace: its stimulus words, and the result written after `->`, if any. -/
structure TraceLine where
  /-- The stimulus words, in order. -/
  words : List Word
  /-- The result written after `->`. -/
  result : Option Nat
  deriving DecidableEq, Repr

/-- The stimulus words of the text of one operation or pseudo-operation. DESIGN CHOICE (log 17): the mnemonic ends at the first
space, and a text without a mnemonic has no words. -/
def assembleText (c : Config) (text : List Char) : Option (List Word) :=
  let name := String.ofList (text.takeWhile (· ≠ ' '))
  match operandList (trim (text.dropWhile (· ≠ ' '))) with
  | none => none
  | some args =>
    if text = [] then some []
    else match mnemonicCodes.lookup name with
      | some op => (assembleOp op args).map fun w => [w]
      | none => (assemblePseudo name args).map fun p => (p.expand c).map encode

/-- Reads one line: a `;` starts a comment, a result may stand after `->` (30_encoding R110). DESIGN CHOICE (log 17): an empty
line is accepted, a result may stand on any line, a pseudo-operation's and an empty one among them, and may have any size. -/
def assembleLine (c : Config) (line : String) : Option TraceLine :=
  let cut := cutArrow (line.toList.takeWhile (· ≠ ';'))
  match assembleText c (trim cut.1), cut.2 with
  | some ws, none => some ⟨ws, none⟩
  | some ws, some r => (number (trim r)).map fun n => ⟨ws, some n⟩
  | none, _ => none

end Sys2Proof.Machine
end

