-- ==== Sys2Proof/Safety.lean ====
section
/-! DEFINITION. What statements about the machine are said with: the states an operation runs in, the invariant that
every step keeps, and runs over a list of operations. -/

namespace Sys2Proof.Machine

/-- An operation has a meaning here: the configuration keeps the constraints of 00_scope R7, and no encoding that never
occurs (93_implementation_defined U15) stands in the state. -/
abbrev State.Ready (s : State) : Prop := s.cfg.valid = true ∧ s.formed = true

/-- The cursors agree: `EXP_BITS` is 16, `BIT_CNT = CYC div 2` and `BYTE_IDX = BIT_CNT div 8` (10_state R24). -/
abbrev State.CursorsAgree (s : State) : Prop :=
  s.smp.expBits = 16#5 ∧ s.smp.bitCnt.toNat = s.smp.cyc.toNat / 2 ∧ s.smp.byteIdx.toNat = s.smp.bitCnt.toNat / 8

/-- The Key Buffer storage is in its canonical form and has no cell outside `KB_MEM` (10_state R28). -/
abbrev State.StorageCanonical (s : State) : Prop :=
  s.kb.mem.wf = true ∧ s.kb.mem.below s.cfg.kbCapacity = true

/-- The ring: both pointers in range, `0 <= kb_count <= KB_CAPACITY` (10_state R28), and no code of class `Alarm` in it
(41_key_encoder R166). -/
abbrev State.RingHolds (s : State) : Prop :=
  s.kb.wr.toNat < 2 * s.cfg.kbCapacity ∧ s.kb.rd.toNat < 2 * s.cfg.kbCapacity ∧ s.kbCount ≤ s.cfg.kbCapacity
    ∧ ∀ code ∈ s.queue, s.cfg.keyClass code ≠ .alarm

/-- The fields of a request of type `ty` are in their ranges (10_state R29, 30_encoding R108). -/
abbrev RequestInRange (ty : AcType) (n : Byte) (interval : BitVec 4) (cont : Bool) : Prop :=
  n ≠ 0#8 ∧ (ty = .beep → n.toNat ≤ 128) ∧ (ty = .tone → n.toNat ≤ 7 ∧ interval ≠ 0#4)
    ∧ (ty ≠ .tone → interval = 0#4 ∧ cont = false)

/-- The acoustic registers hold a legal request, or none (10_state R29, U15). -/
abbrev State.RequestHolds (s : State) : Prop :=
  (s.ac.acType = .none → s.ac.n = 0#8 ∧ s.ac.interval = 0#4 ∧ s.ac.cont = false)
    ∧ (s.ac.acType ≠ .none → RequestInRange s.ac.acType s.ac.n s.ac.interval s.ac.cont)

/-- The queue registers hold a legal waiting request of the type in flight, or none (10_state R29, U15). -/
abbrev State.WaitingHolds (s : State) : Prop :=
  (s.ac.qValid = true → s.ac.acType ≠ .none
      ∧ RequestInRange s.ac.acType s.ac.qN s.ac.qInterval s.ac.qCont)
    ∧ (s.ac.qValid = false → s.ac.qN = 0#8 ∧ s.ac.qInterval = 0#4 ∧ s.ac.qCont = false)

/-- No deadline has passed unfired (40_bus_sampler R140, R143). -/
abbrev State.Urgent (s : State) : Prop :=
  (s.ctl.running = true → s.smp.silArmed = true → s.elapsed s.smp.lastEdge ≤ s.cfg.silenceWindowUs)
    ∧ (s.ac.acType ≠ .none → s.elapsed s.ac.t0 < s.ac.length s.cfg)

/-- The life cycle: running implies bound (45_control R270); a block that is not running holds no press, no request and
no part of a frame; after the countdown fired the cursors are zero. -/
abbrev State.LifeCycle (s : State) : Prop :=
  (s.ctl.running = true → s.ctl.bound = true)
    ∧ (s.ctl.running = false →
        s.ac.acType = .none ∧ s.enc.txSrc = .none ∧ s.smp.silArmed = false ∧ s.smp.frameReady = false)
    ∧ (s.smp.silArmed = false → s.smp.cyc = 0#5)

/-- A response window is open only between the edges taken at `CYC = 1` and `CYC = 16`, with a press in progress, and
`WR_KEY = 1` only in a module window of it (41_key_encoder R160, R164). -/
abbrev State.WindowHolds (s : State) : Prop :=
  (s.enc.txWindow = true → s.enc.txSrc ≠ .none ∧ 2 ≤ s.smp.cyc.toNat ∧ s.smp.cyc.toNat ≤ 16)
    ∧ (s.enc.wrKey = true → s.enc.txWindow = true ∧ s.smp.cyc.toNat % 2 = 0)

/-- The key being sent is the head of the ring or the code of the occupied alarm slot, and the slot holds codes of class
`Alarm` only (41_key_encoder R162, R165, R167; 43_key_buffer R221, R222). -/
abbrev State.PressHolds (s : State) : Prop :=
  (s.enc.txSrc = .fifo → 0 < s.kbCount ∧ s.enc.txKey = s.peek)
    ∧ (s.enc.txSrc = .alarm → s.alm.detected = true ∧ s.alm.respPending = false ∧ s.enc.txKey = s.alm.code)
    ∧ (s.alm.detected = true → s.cfg.keyClass s.alm.code = .alarm)

/-- Every indicator is the decode of its status bit and its blink bit, and before the first true `POLL` the interpreter is
at reset (44_frame_interpreter R243 to R245). -/
abbrev State.LightsHold (s : State) : Prop :=
  (∀ j : Fin 16, s.itp.ind[j] = light ((s.itp.st.get (BitVec.ofNat 1 (j.val / 8))).getLsbD (j.val % 8))
      ((s.itp.bl.get (BitVec.ofNat 1 (j.val / 8))).getLsbD (j.val % 8)))
    ∧ (s.itp.startup = true → s.itp = Interpreter.reset)

/-- The invariant of the machine: a valid configuration and all of the above. -/
abbrev State.Inv (s : State) : Prop :=
  s.cfg.valid = true ∧ s.CursorsAgree ∧ s.StorageCanonical ∧ s.RingHolds ∧ s.RequestHolds ∧ s.WaitingHolds ∧ s.Urgent ∧ s.LifeCycle
    ∧ s.WindowHolds ∧ s.PressHolds ∧ s.LightsHold

/-- The operation completes from `s`, in a state with `post`. -/
def Completes (i : Instr) (s : State) (post : State → Prop) : Prop := ∃ t, exec i s = .next t ∧ post t

/-- The operations run one after the other from `s`, all complete, and end in a state with `post`. -/
def RunsTo : List Instr → State → (State → Prop) → Prop
  | [], s, post => post s
  | i :: is, s, post => Completes i s fun t => RunsTo is t post

end Sys2Proof.Machine
end

