-- ==== Sys2Proof/Certificates/Slice0/Obligations.lean ====
section
/-! DEFINITION. The statements for the provers. Each docstring says which rule of spec/ it formalises. Where a statement
shows values that the spec computes, they are written out here with numbers, not with the functions of the meanings. The
fields `inputs`, `result` and `fired` are the model's own (log 3, log 4): `result` is the result word `R` of 30_encoding
R104, `fired` the internal operations that the operation fired (R106). -/

open Sys2Proof Sys2Proof.Machine

namespace Sys2Proof.Statements

/-- A stimulus word with `op` in bits 31..24, whatever its other bits, stands for the operation that `mk` makes of the
word as a number (30_encoding R103, R105). -/
def Encodes (op : Nat) (mk : Nat → Instr) : Prop :=
  ∀ w : Word, w.toNat / 2 ^ 24 = op → decodeStimulus w = .ok (mk w.toNat)

/-- The byte of a word whose lowest bit is bit `n`. -/
def byteAt (n w : Nat) : Byte := BitVec.ofNat 8 (w / 2 ^ n)

/-- The state after an operation with result 0 that changes nothing and fires nothing; `result` and `fired` are the model's
own fields (log 4). -/
def quiet (s : State) : State := { s with result := 0, fired := [] }

/-- A byte shifted left by one place with a new lowest bit. -/
def shifted (v : Byte) (data : Bool) : Byte := BitVec.ofNat 8 (2 * v.toNat + data.toNat)

/-- The bits of a word that decoding keeps for an operation (30_encoding R103, R105). -/
def keptBits : Instr → Word
  | .initialise _ _ _ => 0xFFFFFFFF
  | .start _ => 0xFF010000
  | .poll => 0xFF000000
  | .push _ => 0xFFFF0000
  | .reqBeep _ => 0xFFFF0000
  | .reqTone _ _ _ => 0xFFFF01FF
  | .reqBuzzer _ => 0xFFFF0000
  | .keyRead => 0xFF000000
  | .keyClear => 0xFF000000
  | .frameRead => 0xFF000000
  | .ovfRead _ => 0xFF010000
  | .indRead _ => 0xFF0F0000
  | .clockEdge _ => 0xFF010000
  | .advance _ => 0xFFFFFFFF
  | .silenceTimeout => 0xFF000000
  | .acousticBoundary => 0xFF000000
  | .frameComplete => 0xFF000000
  | .pop => 0xFF000000

/-- The decode rule of an indicator (44_frame_interpreter R242): "bit set in status and not in blink → on; bit set in both
→ blinking; bit clear in status → off". -/
def indicatorOf (status blink : Bool) : Indicator :=
  if status = false then .off else if blink = false then .on else .blinking

/-- The sampler after an edge has stamped the silence countdown (40_bus_sampler R131). -/
def stamped (s : State) : Sampler := { s.smp with lastEdge := s.ctl.now, silArmed := true }

/-- The module shift registers after a sample (40_bus_sampler R131). -/
def moduleBytes (s : State) (data : Bool) : BytePair :=
  s.smp.modSr.set s.smp.byteIdx (shifted (s.smp.modSr.get s.smp.byteIdx) data)

/-- `ALARM_RESP_PENDING` after the check at a frame completion with command bytes `c0`, `c1` (41_key_encoder R168). -/
def pendingAfter (s : State) (c0 c1 : Byte) : Bool :=
  s.alm.respPending
    && !(decide (s.cfg.alarmReissueUs ≤ (s.ctl.now - s.alm.tIssue).toNat) && s.cfg.alarmAck c0 c1)

/-- Every element of the table of 70_reset_and_hazards R310 but the control registers is at its reset value. -/
def AtReset (s : State) : Prop :=
  s.smp = { cmdSr := ⟨0, 0⟩, modSr := ⟨0, 0⟩, cmdFrame := ⟨0, 0⟩, modFrame := ⟨0, 0⟩, cyc := 0, bitCnt := 0,
            byteIdx := 0, expBits := 16, frameReady := false, lastEdge := 0, silArmed := false }
    ∧ s.enc = { txSrc := .none, txKey := 0, txT0 := 0, txWindow := false, wrKey := false }
    ∧ s.alm = { detected := false, code := 0, respPending := false, tIssue := 0 }
    ∧ (∀ a : Nat, s.kb.mem.read a = 0) ∧ s.kb.wr = 0 ∧ s.kb.rd = 0 ∧ s.kb.overflow = false
    ∧ s.ac = { acType := .none, n := 0, interval := 0, cont := false, t0 := 0, qValid := false, qN := 0,
               qInterval := 0, qCont := false }
    ∧ (∀ j : Fin 16, s.itp.ind[j] = .off) ∧ s.itp.st = ⟨0, 0⟩ ∧ s.itp.bl = ⟨0, 0⟩ ∧ s.itp.indChanged = 0
    ∧ s.itp.startup = true ∧ s.itp.keyAvailable = false ∧ s.itp.keyValue = 0

/-- The length of the current request, or of one period of a tone, in microseconds (42_acoustic R196). -/
def requestLength (s : State) : Nat :=
  match s.ac.acType with
  | .none => 0
  | .beep => s.ac.n.toNat * (s.cfg.beepOnUs + s.cfg.beepGapUs)
  | .buzzer => s.ac.n.toNat * s.cfg.timeUnitUs + s.cfg.beepGapUs
  | .tone => s.ac.interval.toNat * s.cfg.timeUnitUs

/-- The acoustic registers after a boundary at the instant `now` (42_acoustic R198): the waiting request is promoted, or a
tone starts its next period, or the request ends. -/
def afterBoundary (a : Acoustic) (now : Time) : Acoustic :=
  if a.qValid = true then
    { a with n := a.qN, interval := a.qInterval, cont := a.qCont, t0 := now,
             qValid := false, qN := 0, qInterval := 0, qCont := false }
  else if a.acType = .tone then { a with t0 := now }
  else { a with acType := .none, n := 0, interval := 0, cont := false }

/-- The sampler and the encoder after a silence timeout (40_bus_sampler R138, 41_key_encoder R169). -/
def afterSilence (s : State) : State :=
  { s with
    smp := { s.smp with cyc := 0, bitCnt := 0, byteIdx := 0, silArmed := false }
    enc := { s.enc with wrKey := false, txWindow := false } }

/-- The edges with samples `d 0`, `d 1`, …, edge `j` a time `dt j` after what comes before it. -/
def edgesOf (d : Nat → Bool) (dt : Nat → BitVec 24) (n : Nat) : List Instr :=
  (List.range n).flatMap fun j => [.advance (dt j), .clockEdge (d j)]

end Sys2Proof.Statements

open Sys2Proof.Statements

/-! ### Encoding and the step -/

/-- Decoding the word of an operation gives the operation, with every operand at every value its field admits (30_encoding
R102, R103, R105, R106). -/
def Obligations.DecodeOfEncodedOperation : Prop :=
  ∀ i : Instr, decode (encode i) = .ok i

/-- A word that decodes to an operation is that operation's word with the ignored operand bits cleared: no other bit is
dropped, and two words of one operation differ in ignored bits only (30_encoding R103). -/
def Obligations.EncodeOfDecodedWordKeepsReadBits : Prop :=
  ∀ (w : Word) (i : Instr), decode w = .ok i → encode i = w &&& keptBits i

/-- Words of the spec's own list of encodings (95_test_vectors V73, V72) decode to the operations they stand for. -/
def Obligations.ListedWordsDecode : Prop :=
  decode 0x01050607 = .ok (.initialise 5 6 7) ∧ decode 0x02010000 = .ok (.start true)
    ∧ decode 0x047A0000 = .ok (.push 0x7A) ∧ decode 0x06020104 = .ok (.reqTone 2 true 4)
    ∧ decode 0x0CF30000 = .ok (.indRead 3) ∧ decode 0x80FE0000 = .ok (.clockEdge false)
    ∧ decode 0x810007D1 = .ok (.advance 2001) ∧ decode 0xC2000000 = .ok .frameComplete

/-- A step takes the oldest stimulus word and runs the operation it decodes to; an internal code is no stimulus. With no
stimulus nothing happens. The stream in the state is the model's choice (log 3). -/
def Obligations.StepRunsTheDecodedStimulus : Prop :=
  (∀ (s : State) (w : Word) (ws : List Word) (i : Instr), s.inputs = w :: ws → decode w = .ok i →
      i.wellFormed = true → step s = exec i { s with inputs := ws })
    ∧ ∀ s : State, s.inputs = [] → step s = .next s

/-- A word whose `op` is not in the table of R105 does nothing and returns 0; a word whose `op` is in the table stands for
an operation whatever its other bits are (30_encoding R107). -/
def Obligations.ReservedWordsDoNothing : Prop :=
  ∀ (s : State) (w : Word) (ws : List Word), s.inputs = w :: ws →
    let op := w.toNat / 2 ^ 24
    if 1 ≤ op ∧ op ≤ 12 ∨ op = 0x80 ∨ op = 0x81 then ∃ i, decodeStimulus w = .ok i
    else s.Ready → step s = .next { s with inputs := ws, result := 0, fired := [] }

/-- A configuration that breaks any constraint of 00_scope R7 gives no operation a meaning (R8). -/
def Obligations.BrokenConfigurationIsRefused : Prop :=
  ∀ (i : Instr) (s : State),
    ¬ (1 ≤ s.cfg.kbCapacity ∧ s.cfg.kbCapacity ≤ 127
        ∧ 1 ≤ s.cfg.silenceWindowUs ∧ s.cfg.silenceWindowUs < 2 ^ 31
        ∧ 1 ≤ s.cfg.timeUnitUs ∧ 255 * s.cfg.timeUnitUs + s.cfg.beepGapUs < 2 ^ 31
        ∧ 7 * s.cfg.beepOnUs + 6 * s.cfg.beepGapUs ≤ s.cfg.timeUnitUs
        ∧ 1 ≤ s.cfg.beepOnUs ∧ 128 * (s.cfg.beepOnUs + s.cfg.beepGapUs) < 2 ^ 31
        ∧ 1 ≤ s.cfg.beepGapUs ∧ s.cfg.lightRoute 0x05 = .status
        ∧ s.cfg.longHoldUs < 2 ^ 31 ∧ s.cfg.alarmMinHoldUs < 2 ^ 31 ∧ s.cfg.alarmReissueUs < 2 ^ 31) →
    exec i s = .refused .invalidConfiguration

/-- A state with an encoding that never occurs is refused: 93_implementation_defined U15 says "refuse"; that the refusal is
made at every operation is the model's choice (log 6). -/
def Obligations.EncodingThatNeverOccursIsRefused : Prop :=
  ∀ (i : Instr) (s : State), s.cfg.valid = true →
    (16 < s.smp.bitCnt.toNat ∨ 2 * s.cfg.kbCapacity ≤ s.kb.wr.toNat ∨ 2 * s.cfg.kbCapacity ≤ s.kb.rd.toNat
      ∨ s.cfg.kbCapacity < s.kbCount ∨ (s.ac.acType ≠ .none ∧ s.ac.n = 0)) →
    exec i s = .refused .unreachableState

/-! ### Reset and control -/

/-- Power-on gives every element the value of the table of 70_reset_and_hazards R310, for every configuration, and the two
outputs 0; `INITIALIZE` gives them again in any state, but for `NOW`, `BOUND` and the pins. -/
def Obligations.ResetHasTheStatedValues : Prop :=
  (∀ c : Config, let s := State.resetWith c
    s.ctl = { now := 0, bound := false, running := false, traceEn := false, pinClk := 0, pinRd := 0, pinWr := 0 }
    ∧ AtReset s ∧ s.wr = false ∧ s.toneCont = false)
    ∧ ∀ (s : State) (a b c : Byte), s.Ready →
      Completes (.initialise a b c) s fun t => t.ctl.running = false ∧ t.ctl.traceEn = false
        ∧ AtReset t ∧ t.wr = false ∧ t.toneCont = false

/-- The invariant holds at reset under every valid configuration. The machine's own reset state carries the spec's test
configuration, the model's choice (log 1), and is such a state. -/
def Obligations.ResetSatisfiesTheInvariant : Prop :=
  (∀ c : Config, c.valid = true → (State.resetWith c).Inv)
    ∧ State.reset = State.resetWith .ref ∧ State.reset.Inv

/-- `INITIALIZE` gives the reset state but for `NOW`, `BOUND` and the pins (45_control R271). The configuration and the
stimulus stream are no state elements of the block. -/
def Obligations.InitializeRestoresReset : Prop :=
  Encodes 0x01 (fun w => .initialise (byteAt 16 w) (byteAt 8 w) (byteAt 0 w))
    ∧ ∀ (s : State) (a b c : Byte), s.Ready →
      exec (.initialise a b c) s = .next { State.resetWith s.cfg with
        ctl := { now := s.ctl.now, bound := true, running := false, traceEn := false, pinClk := a, pinRd := b,
                 pinWr := c },
        inputs := s.inputs, result := 0, fired := [] }

/-- `START` arms the edge interrupt and the countdown if the block is bound and not running, and does nothing else
(45_control R272). -/
def Obligations.StartArmsOnceBound : Prop :=
  Encodes 0x02 (fun w => .start (w.testBit 16))
    ∧ ∀ (s : State) (trace : Bool), s.Ready →
      exec (.start trace) s = .next (
        if s.ctl.bound = true ∧ s.ctl.running = false then
          { s with
            ctl := { s.ctl with running := true, traceEn := trace },
            smp := { s.smp with lastEdge := s.ctl.now, silArmed := true },
            result := 0, fired := [] }
        else quiet s)

/-! ### Bus Sampler -/

/-- While `RUNNING = 0` a `CLOCK_EDGE` changes nothing (40_bus_sampler R142). -/
def Obligations.EdgeBeforeStartChangesNothing : Prop :=
  ∀ (s : State) (data : Bool), s.Ready → s.ctl.running = false → exec (.clockEdge data) s = .next (quiet s)

/-- An edge at even `CYC` that closes no response window: the sample goes to the low bit of `CMD_SR[BYTE_IDX]`, `CYC` moves
on, the countdown restarts, `WR_KEY` is released, and nothing else changes (40_bus_sampler R131, R132; 41_key_encoder
R164). The edge that closes a window is the subject of another statement. -/
def Obligations.PanelEdgeShiftsTheCommandByte : Prop :=
  Encodes 0x80 (fun w => .clockEdge (w.testBit 16))
    ∧ ∀ (s : State) (data : Bool), s.Ready → s.ctl.running = true → s.smp.cyc.toNat % 2 = 0 →
      ¬ (s.smp.bitCnt = 8 ∧ s.enc.txWindow = true) →
      exec (.clockEdge data) s = .next { s with
        smp := { stamped s with
          cmdSr := s.smp.cmdSr.set s.smp.byteIdx (shifted (s.smp.cmdSr.get s.smp.byteIdx) data),
          cyc := s.smp.cyc + 1 },
        enc := { s.enc with wrKey := false },
        result := 0, fired := [] }

/-- An edge at odd `CYC` that does not complete the frame: the sample goes to the low bit of `MOD_SR[BYTE_IDX]`, the bit
cursor moves on, the byte cursor with it at a byte boundary, and outside the sampler only the encoder's latches may change
(40_bus_sampler R131, R132). -/
def Obligations.ModuleEdgeShiftsTheModuleByte : Prop :=
  ∀ (s : State) (data : Bool), s.Ready → s.ctl.running = true → s.smp.cyc.toNat % 2 = 1 →
    s.smp.bitCnt + 1 ≠ s.smp.expBits →
    Completes (.clockEdge data) s fun t =>
      t = { s with
        smp := { stamped s with
          modSr := moduleBytes s data,
          bitCnt := s.smp.bitCnt + 1,
          byteIdx := if (s.smp.bitCnt.toNat + 1) % 8 = 0 then s.smp.byteIdx + 1 else s.smp.byteIdx,
          cyc := s.smp.cyc + 1 },
        enc := t.enc, result := 0, fired := [] }

/-- The edge that makes `BIT_CNT` reach `EXP_BITS` completes the frame in the same step: the four bytes are handed over, the
new sample among them, `FRAME_READY` is set, the cursors return to 0 and the alarm acknowledgment is checked on the new
frame (40_bus_sampler R131, R135; 41_key_encoder R168). -/
def Obligations.LastEdgeCompletesTheFrame : Prop :=
  ∀ (s : State) (data : Bool), s.Ready → s.ctl.running = true → s.smp.cyc.toNat % 2 = 1 →
    s.smp.bitCnt + 1 = s.smp.expBits →
    Completes (.clockEdge data) s fun t =>
      t = { s with
        smp := { stamped s with
          modSr := moduleBytes s data,
          cmdFrame := s.smp.cmdSr, modFrame := moduleBytes s data, frameReady := true,
          bitCnt := 0, byteIdx := 0, cyc := s.smp.cyc + 1 },
        alm := { s.alm with respPending := pendingAfter s s.smp.cmdSr.b0 s.smp.cmdSr.b1 },
        enc := t.enc, result := 0, fired := [.frameComplete s.ctl.now] }

/-- After the 32 edges of an aligned frame cycle, whatever the time before each of them up to the silence window, each of the
four bytes holds the samples of its edges, most significant bit first, in the shift registers and in the frame buffers. The
spec derives this law (40_bus_sampler R133) from R131. -/
def Obligations.ThirtyTwoEdgesPlaceEveryBit : Prop :=
  ∀ (s : State) (d : Nat → Bool) (dt : Nat → BitVec 24), s.Inv → s.ctl.running = true → s.smp.cyc = 0 →
    (∀ j < 32, (dt j).toNat ≤ s.cfg.silenceWindowUs) →
    RunsTo (edgesOf d dt 32) s fun t =>
      (∀ k < 8, t.smp.cmdSr.b0.getLsbD (7 - k) = d (2 * k) ∧ t.smp.cmdSr.b1.getLsbD (7 - k) = d (16 + 2 * k)
        ∧ t.smp.modSr.b0.getLsbD (7 - k) = d (2 * k + 1) ∧ t.smp.modSr.b1.getLsbD (7 - k) = d (17 + 2 * k))
      ∧ t.smp.cmdFrame = t.smp.cmdSr ∧ t.smp.modFrame = t.smp.modSr ∧ t.smp.frameReady = true
      ∧ t.smp.cyc = 0 ∧ t.smp.bitCnt = 0 ∧ t.smp.byteIdx = 0

/-- `FRAME_COMPLETE` by itself: the hand-off of the four bytes, `FRAME_READY`, the cursors and the alarm acknowledgment
(40_bus_sampler R135, 41_key_encoder R168). -/
def Obligations.FrameCompleteHandsOverFourBytes : Prop :=
  ∀ s : State, s.Ready →
    exec .frameComplete s = .next { s with
      smp := { s.smp with cmdFrame := s.smp.cmdSr, modFrame := s.smp.modSr, frameReady := true, bitCnt := 0,
                          byteIdx := 0 },
      alm := { s.alm with respPending := pendingAfter s s.smp.cmdSr.b0 s.smp.cmdSr.b1 },
      result := 0, fired := [.frameComplete s.ctl.now] }

/-- `SILENCE_TIMEOUT` by itself: the cursors and the countdown, and the encoder's line released; nothing else is written
(40_bus_sampler R138, 41_key_encoder R169). -/
def Obligations.SilenceTimeoutRealignsTheCursors : Prop :=
  ∀ s : State, s.Ready →
    exec .silenceTimeout s = .next { afterSilence s with result := 0, fired := [.silenceTimeout s.ctl.now] }

/-- "No partial frame is ever marked ready": a step raises `FRAME_READY` only by the edge taken at `CYC = 31`, which fires
`FRAME_COMPLETE` and hands the shift registers over whole (40_bus_sampler R136). -/
def Obligations.ReadyOnlyByACompletedFrame : Prop :=
  ∀ s t : State, s.CursorsAgree → step s = .next t → s.smp.frameReady = false → t.smp.frameReady = true →
    s.smp.cyc = 31 ∧ t.fired = [.frameComplete s.ctl.now]
      ∧ t.smp.cmdFrame = t.smp.cmdSr ∧ t.smp.modFrame = t.smp.modSr
      ∧ ∃ (w : Word) (data : Bool), s.nextWord = some w ∧ decodeStimulus w = .ok (.clockEdge data)

/-- A complete, well-timed frame is polled exactly once, with its bytes (40_bus_sampler R144). -/
def Obligations.FrameIsPolledOnceWithItsBytes : Prop :=
  ∀ (s : State) (c0 c1 m0 m1 : Byte) (dt : BitVec 24), s.Inv → s.ctl.running = true → s.smp.cyc = 0 →
    s.smp.frameReady = false → dt.toNat ≤ s.cfg.silenceWindowUs →
    RunsTo ((Pseudo.frame c0 c1 m0 m1 dt).expand s.cfg) s fun t =>
      Completes .poll t fun u => u.result = 1 ∧
        Completes .frameRead u fun v => v.result = c0 ++ c1 ++ m0 ++ m1 ∧
          Completes .poll v fun x => x.result = 0

/-- A frame cut short by silence is discarded, and the next frame is decoded right (40_bus_sampler R145). R111 gives
`SILENCE` as one `ADVANCE`, whose operand has 24 bits, so the statement is about the windows below `0xFFFFFF`, whose sum
with 1 it can hold. -/
def Obligations.FrameAfterSilenceIsDecoded : Prop :=
  ∀ (s : State) (n : Nat) (d : Bool) (c0 c1 m0 m1 : Byte) (dt : BitVec 24), s.Inv → s.ctl.running = true →
    s.smp.cyc = 0 → s.smp.frameReady = false → dt.toNat ≤ s.cfg.silenceWindowUs → 0 < n → n < 32 →
    s.cfg.silenceWindowUs < 0xFFFFFF →
    RunsTo ((Pseudo.edges n d dt).expand s.cfg) s fun a =>
      Completes .poll a fun a' => a'.result = 0 ∧
        RunsTo (Pseudo.silence.expand s.cfg) a' fun b =>
          Completes .poll b fun b' => b'.result = 0 ∧
            RunsTo ((Pseudo.frame c0 c1 m0 m1 dt).expand s.cfg) b' fun t =>
              Completes .poll t fun u => u.result = 1 ∧
                Completes .frameRead u fun v => v.result = c0 ++ c1 ++ m0 ++ m1

/-! ### Time -/

/-- `ADVANCE dt` moves `NOW` by `dt` modulo `2^32`, and whatever it fires leaves the shift registers, the frame buffers, the
stamps, the key being sent, the alarm path, the Key Buffer and the interpreter as they were (40_bus_sampler R140, with the
write sets of R138 and of 42_acoustic R198). -/
def Obligations.AdvanceMovesTimeAndItsFrame : Prop :=
  Encodes 0x81 (fun w => .advance (BitVec.ofNat 24 w))
    ∧ ∀ (s : State) (dt : BitVec 24), s.Ready →
      Completes (.advance dt) s fun t =>
        t = { s with
          ctl := { s.ctl with now := BitVec.ofNat 32 (s.ctl.now.toNat + dt.toNat) },
          smp := { s.smp with cyc := t.smp.cyc, bitCnt := t.smp.bitCnt, byteIdx := t.smp.byteIdx,
                              silArmed := t.smp.silArmed },
          enc := { s.enc with txWindow := t.enc.txWindow, wrKey := t.enc.wrKey },
          ac := t.ac, result := 0, fired := t.fired }

/-- An `ADVANCE` that ends before either deadline only moves `NOW` (40_bus_sampler R140): an edge at the end of the silence
window is in time (R139). -/
def Obligations.AdvanceBeforeTheDeadlinesFiresNothing : Prop :=
  ∀ (s : State) (dt : BitVec 24), s.Ready →
    (s.ctl.running = true → s.smp.silArmed = true → s.elapsed s.smp.lastEdge + dt.toNat ≤ s.cfg.silenceWindowUs) →
    (s.ac.acType ≠ .none → s.elapsed s.ac.t0 + dt.toNat < s.ac.length s.cfg) →
    exec (.advance dt) s = .next { s with
      ctl := { s.ctl with now := s.ctl.now + BitVec.ofNat 32 dt.toNat }, result := 0, fired := [] }

/-- An `ADVANCE` that passes the end of the silence window and ends before the end of the acoustic request in flight, if any,
fires `SILENCE_TIMEOUT` once, at the instant `elapsed(LAST_EDGE) = SILENCE_WINDOW_US + 1`, and nothing else; the acoustic
registers are unchanged (40_bus_sampler R139, R140, R138). -/
def Obligations.SilenceFiresJustAfterItsWindow : Prop :=
  ∀ (s : State) (dt : BitVec 24), s.Inv → s.ctl.running = true → s.smp.silArmed = true →
    (s.ac.acType ≠ .none → s.elapsed s.ac.t0 + dt.toNat < requestLength s) →
    s.cfg.silenceWindowUs < s.elapsed s.smp.lastEdge + dt.toNat →
    exec (.advance dt) s = .next { afterSilence s with
      ctl := { s.ctl with now := s.ctl.now + BitVec.ofNat 32 dt.toNat },
      result := 0,
      fired := [.silenceTimeout (s.smp.lastEdge + BitVec.ofNat 32 (s.cfg.silenceWindowUs + 1))] }

/-- An `ADVANCE` that ends at the instant `elapsed(AC_T0) = ac_len()`, with no silence due, fires `ACOUSTIC_BOUNDARY` once, at
that instant: the waiting request is promoted, or a tone starts its next period, or the request ends (40_bus_sampler R140;
42_acoustic R196, R198). -/
def Obligations.BoundaryFiresAtTheEndOfItsRequest : Prop :=
  ∀ (s : State) (dt : BitVec 24), s.Inv → s.ac.acType ≠ .none →
    (s.smp.silArmed = true → s.elapsed s.smp.lastEdge + dt.toNat ≤ s.cfg.silenceWindowUs) →
    s.elapsed s.ac.t0 + dt.toNat = requestLength s →
    let later := s.ctl.now + BitVec.ofNat 32 dt.toNat
    exec (.advance dt) s = .next { s with
      ctl := { s.ctl with now := later },
      ac := afterBoundary s.ac later,
      result := 0, fired := [.acousticBoundary later] }

/-- When the silence deadline and an acoustic boundary fall at the same instant, `SILENCE_TIMEOUT` fires first
(40_bus_sampler R141): every `ADVANCE` that reaches the instant logs the two in this order before anything else, and one
that ends at it leaves the effects of both and nothing else. -/
def Obligations.SilenceFiresBeforeBoundaryAtOneInstant : Prop :=
  ∀ (s : State) (dt : BitVec 24) (r : Nat), s.Ready → s.ctl.running = true → s.smp.silArmed = true →
    s.ac.acType ≠ .none → s.elapsed s.smp.lastEdge + r = s.cfg.silenceWindowUs + 1 →
    s.elapsed s.ac.t0 + r = requestLength s → r ≤ dt.toNat →
    let at_ := s.ctl.now + BitVec.ofNat 32 r
    (Completes (.advance dt) s fun t => ∃ later : List Event,
      t.fired = .silenceTimeout at_ :: .acousticBoundary at_ :: later)
    ∧ (dt.toNat = r →
      exec (.advance dt) s = .next { afterSilence s with
        ctl := { s.ctl with now := at_ },
        ac := afterBoundary s.ac at_,
        result := 0, fired := [.silenceTimeout at_, .acousticBoundary at_] })

/-- Time is additive: two `ADVANCE`s in a row do what one `ADVANCE` of the sum does, and fire the same internal operations
at the same instants in the same order. It says that every deadline fires at its own instant, not at the end of the
`ADVANCE` in which it falls (40_bus_sampler R140, R143). -/
def Obligations.AdvanceIsAdditive : Prop :=
  ∀ (s : State) (a b : BitVec 24), s.Inv → a.toNat + b.toNat < 2 ^ 24 →
    Completes (.advance a) s fun u => Completes (.advance b) u fun t =>
      exec (.advance (a + b)) s = .next { t with fired := u.fired ++ t.fired }

/-! ### Key Encoder and outputs -/

/-- The window-open edge, `CYC = 1` (41_key_encoder R161, R162): a press in progress goes on; else the alarm key is taken
before the oldest buffered key; the window opens iff a key is being sent, and its bit 7 is driven. The Key Buffer and the
alarm path are unchanged. -/
def Obligations.WindowOpenEdgeSelectsTheKey : Prop :=
  ∀ (s : State) (data : Bool), s.Inv → s.ctl.running = true → s.smp.cyc = 1 →
    Completes (.clockEdge data) s fun t =>
      t = { s with smp := t.smp, enc := t.enc, result := 0, fired := [] }
      ∧ (s.enc.txSrc ≠ .none →
          t.enc.txSrc = s.enc.txSrc ∧ t.enc.txKey = s.enc.txKey ∧ t.enc.txT0 = s.enc.txT0 ∧ t.enc.txWindow = true)
      ∧ (s.enc.txSrc = .none → s.alm.detected = true → s.alm.respPending = false →
          t.enc.txSrc = .alarm ∧ t.enc.txKey = s.alm.code ∧ t.enc.txT0 = s.ctl.now ∧ t.enc.txWindow = true)
      ∧ (s.enc.txSrc = .none → ¬ (s.alm.detected = true ∧ s.alm.respPending = false) →
          ∀ (h : Byte) (q : List Byte), s.queue = h :: q →
            t.enc.txSrc = .fifo ∧ t.enc.txKey = h ∧ t.enc.txT0 = s.ctl.now ∧ t.enc.txWindow = true)
      ∧ (s.enc.txSrc = .none → ¬ (s.alm.detected = true ∧ s.alm.respPending = false) → s.queue = [] →
          t.enc.txSrc = .none ∧ t.enc.txKey = s.enc.txKey ∧ t.enc.txT0 = s.enc.txT0 ∧ t.enc.txWindow = false)
      ∧ t.enc.wrKey = (t.enc.txWindow && (t.enc.txKey.getLsbD 7 == s.cfg.assertOn))

/-- Every later module-window edge drives bit `7 - k` of the key in bit positions 1 to 7 of an open window, and nothing in
the others (41_key_encoder R161, R163). -/
def Obligations.ModuleEdgeDrivesTheKeyBit : Prop :=
  ∀ (s : State) (data : Bool), s.Ready → s.ctl.running = true → s.smp.cyc.toNat % 2 = 1 → 0 < s.smp.bitCnt.toNat →
    Completes (.clockEdge data) s fun t =>
      t.enc = { s.enc with
        wrKey := decide (s.smp.bitCnt.toNat < 8) && s.enc.txWindow
          && (s.enc.txKey.getLsbD (7 - s.smp.bitCnt.toNat) == s.cfg.assertOn) }

/-- The window-close edge, `CYC = 16`, of a frame cycle in which a key was sent (41_key_encoder R164 to R166): a `Short`
key, or a `Long` key held for `LONG_HOLD_US`, is popped; an alarm key held for `ALARM_MIN_HOLD_US` is retired; any other
press goes on; the window closes in every case. -/
def Obligations.WindowCloseEdgeRetiresTheKey : Prop :=
  ∀ (s : State) (data : Bool), s.Inv → s.ctl.running = true → s.smp.cyc = 16 → s.enc.txWindow = true →
    let held := (s.ctl.now - s.enc.txT0).toNat
    Completes (.clockEdge data) s fun t =>
      t = { s with
        smp := { stamped s with
          cmdSr := { s.smp.cmdSr with b1 := shifted s.smp.cmdSr.b1 data }, cyc := 17 },
        enc := { s.enc with txSrc := t.enc.txSrc, wrKey := false, txWindow := false },
        alm := t.alm, kb := { s.kb with rd := t.kb.rd }, result := 0, fired := t.fired }
      ∧ (s.enc.txSrc = .fifo →
          (s.cfg.keyClass s.enc.txKey = .short ∨ s.cfg.longHoldUs ≤ held →
            t.enc.txSrc = .none ∧ s.queue = s.enc.txKey :: t.queue ∧ t.alm = s.alm
              ∧ t.fired = [.pop s.ctl.now (some s.enc.txKey)])
          ∧ (s.cfg.keyClass s.enc.txKey = .long → held < s.cfg.longHoldUs →
            t.enc.txSrc = .fifo ∧ t.kb = s.kb ∧ t.alm = s.alm ∧ t.fired = []))
      ∧ (s.enc.txSrc = .alarm → t.kb = s.kb ∧ t.fired = []
          ∧ (s.cfg.alarmMinHoldUs ≤ held → t.enc.txSrc = .none
              ∧ t.alm = { s.alm with detected := false, respPending := true, tIssue := s.ctl.now })
          ∧ (held < s.cfg.alarmMinHoldUs → t.enc.txSrc = .alarm ∧ t.alm = s.alm))

/-- The alarm key is not issued again before the panel has acknowledged it: only a frame completion, after the suppression
window and with `ALARM_ACK` true of its command bytes, clears `ALARM_RESP_PENDING`, or `INITIALIZE` (41_key_encoder R167,
R168; 70_reset_and_hazards R325). -/
def Obligations.ResponsePendingUntilAcknowledged : Prop :=
  ∀ (i : Instr) (s t : State), exec i s = .next t → (∀ a b c, i ≠ .initialise a b c) →
    s.alm.respPending = true → t.alm.respPending = false →
    s.cfg.alarmReissueUs ≤ (s.ctl.now - s.alm.tIssue).toNat
      ∧ s.cfg.alarmAck t.smp.cmdFrame.b0 t.smp.cmdFrame.b1 = true
      ∧ t.fired = [.frameComplete s.ctl.now]

/-- The property the source asks of the encoder, for any key of class `Short` (41_key_encoder R171): after the push, the
write pin shows the key, most significant bit first, in the module windows of bit positions 0 to 7 of the next frame cycle
and is idle in every panel window, and after the 17th edge the buffer is empty. -/
def Obligations.ShortKeyIsSentOnceAndPopped : Prop :=
  ∀ (s : State) (code : Byte) (d : Nat → Bool) (dt : Nat → BitVec 24), s.Inv → s.ctl.running = true → s.smp.cyc = 0 →
    s.enc.txSrc = .none → s.kbCount = 0 → s.alm.detected = false → s.ac.acType = .none →
    s.cfg.keyClass code = .short → (∀ j < 17, (dt j).toNat ≤ s.cfg.silenceWindowUs) →
    Completes (.push code) s fun u => u.queue = [code] ∧ ∀ j ≤ 17, RunsTo (edgesOf d dt j) u fun t =>
      t.wr = (decide (j % 2 = 0 ∧ 2 ≤ j) && (code.getLsbD (8 - j / 2) == s.cfg.assertOn))
      ∧ (j = 17 → t.queue = [] ∧ t.enc.txSrc = .none)

/-- The write pin (41_key_encoder R170). -/
def Obligations.WritePinIsSharedByPriority : Prop :=
  ∀ s : State,
    (s.ctl.running = false → s.wr = false)
    ∧ (s.ctl.running = true → s.enc.txWindow = true → s.wr = s.enc.wrKey)
    ∧ (s.ctl.running = true → s.enc.txWindow = false →
        let e := (s.ctl.now - s.ac.t0).toNat
        let p := s.cfg.beepOnUs + s.cfg.beepGapUs
        s.wr = match s.ac.acType with
          | .none => false
          | .beep => decide (e % p < s.cfg.beepOnUs)
          | .buzzer => decide (e < s.ac.n.toNat * s.cfg.timeUnitUs)
          | .tone => decide (e < s.ac.n.toNat * p ∧ e % p < s.cfg.beepOnUs))

/-- The continuous-tone output (42_acoustic R203). -/
def Obligations.ContinuousToneOutput : Prop :=
  ∀ s : State, s.toneCont = true ↔ s.ctl.running = true ∧ s.ac.acType = .tone ∧ s.ac.cont = true

/-! ### Acoustic Sequencer -/

/-- `REQ_BEEP` (42_acoustic R191, R194, R195): ignored for 0 and while not running; at most 128; it waits behind a beep in
flight and overrides any other type. -/
def Obligations.BeepRequestIsClampedQueuedOrStarted : Prop :=
  Encodes 0x05 (fun w => .reqBeep (byteAt 16 w))
    ∧ ∀ (s : State) (count : Byte), s.Ready →
      let n := BitVec.ofNat 8 (min count.toNat 128)
      exec (.reqBeep count) s = .next (
        if count = 0 ∨ s.ctl.running = false then quiet s
        else if s.ac.acType = .beep then
          { quiet s with ac := { s.ac with qValid := true, qN := n, qInterval := 0, qCont := false } }
        else
          { quiet s with ac := { acType := .beep, n := n, interval := 0, cont := false, t0 := s.ctl.now,
                                 qValid := false, qN := 0, qInterval := 0, qCont := false } })

/-- `REQ_TONE` (42_acoustic R192, R194, R195): ignored for a zero count or interval and while not running; at most 7 and
15; it waits behind a tone in flight and overrides any other type. -/
def Obligations.ToneRequestIsClampedQueuedOrStarted : Prop :=
  Encodes 0x06 (fun w => .reqTone (byteAt 16 w) (w.testBit 8) (byteAt 0 w))
    ∧ ∀ (s : State) (count : Byte) (continuous : Bool) (interval : Byte), s.Ready →
      let n := BitVec.ofNat 8 (min count.toNat 7)
      let k := BitVec.ofNat 4 (min interval.toNat 15)
      exec (.reqTone count continuous interval) s = .next (
        if count = 0 ∨ interval = 0 ∨ s.ctl.running = false then quiet s
        else if s.ac.acType = .tone then
          { quiet s with ac := { s.ac with qValid := true, qN := n, qInterval := k, qCont := continuous } }
        else
          { quiet s with ac := { acType := .tone, n := n, interval := k, cont := continuous, t0 := s.ctl.now,
                                 qValid := false, qN := 0, qInterval := 0, qCont := false } })

/-- `REQ_BUZZER` (42_acoustic R193, R194, R195): ignored for 0 and while not running; it waits behind a buzzer in flight and
overrides any other type. -/
def Obligations.BuzzerRequestIsQueuedOrStarted : Prop :=
  Encodes 0x07 (fun w => .reqBuzzer (byteAt 16 w))
    ∧ ∀ (s : State) (duration : Byte), s.Ready →
      exec (.reqBuzzer duration) s = .next (
        if duration = 0 ∨ s.ctl.running = false then quiet s
        else if s.ac.acType = .buzzer then
          { quiet s with ac := { s.ac with qValid := true, qN := duration, qInterval := 0, qCont := false } }
        else
          { quiet s with ac := { acType := .buzzer, n := duration, interval := 0, cont := false, t0 := s.ctl.now,
                                 qValid := false, qN := 0, qInterval := 0, qCont := false } })

/-- `ACOUSTIC_BOUNDARY` by itself (42_acoustic R198): the waiting request is promoted, or a tone starts its next period, or
the request ends; nothing else changes. -/
def Obligations.AcousticBoundaryPromotesRepeatsOrEnds : Prop :=
  ∀ s : State, s.Ready →
    exec .acousticBoundary s = .next { s with
      ac := afterBoundary s.ac s.ctl.now, result := 0, fired := [.acousticBoundary s.ctl.now] }

/-- A beep of `N` from an idle sequencer, with no key window open, gives exactly `N` assertions of `BEEP_ON_US`, one every
`BEEP_ON_US + BEEP_GAP_US`: the write pin is asserted `dt` microseconds after the request iff `dt` falls in one of them
(42_acoustic R199, R197). -/
def Obligations.BeepGivesExactlyItsAssertions : Prop :=
  ∀ (s : State) (count : Byte) (dt : BitVec 24), s.Inv → s.ctl.running = true → s.ac.acType = .none →
    s.enc.txWindow = false → count ≠ 0 →
    Completes (.reqBeep count) s fun u => Completes (.advance dt) u fun t =>
      (t.wr = true ↔ ∃ i < min count.toNat 128,
        i * (s.cfg.beepOnUs + s.cfg.beepGapUs) ≤ dt.toNat
          ∧ dt.toNat < i * (s.cfg.beepOnUs + s.cfg.beepGapUs) + s.cfg.beepOnUs)

/-- A tone never stops by itself, and with no request waiting it keeps its parameters, however much time passes
(42_acoustic R198; 70_reset_and_hazards R328). -/
def Obligations.ToneNeverStopsByItself : Prop :=
  ∀ (s : State) (dt : BitVec 24), s.Ready → s.ac.acType = .tone →
    Completes (.advance dt) s fun t => t.ac.acType = .tone
      ∧ (s.ac.qValid = false → t.ac = { s.ac with t0 := t.ac.t0 })

/-! ### Key Buffer -/

/-- `PUSH` (43_key_buffer R221): an alarm code goes to its slot, any other code to the ring; a rejected code changes nothing
but `OVERFLOW`; an accepted one is written at `KB_WR mod KB_CAPACITY` and no other cell changes. -/
def Obligations.PushAcceptsOrSetsOverflow : Prop :=
  Encodes 0x04 (fun w => .push (byteAt 16 w))
    ∧ ∀ (s : State) (code : Byte), s.Ready → s.StorageCanonical →
      Completes (.push code) s fun t =>
        t = { s with alm := t.alm, kb := t.kb, result := 0, fired := [] }
        ∧ (s.cfg.keyClass code = .alarm → s.alm.detected = true →
            t.alm = s.alm ∧ t.kb = { s.kb with overflow := true })
        ∧ (s.cfg.keyClass code = .alarm → s.alm.detected = false →
            t.alm = { s.alm with detected := true, code := code } ∧ t.kb = s.kb)
        ∧ (s.cfg.keyClass code ≠ .alarm → s.kbCount = s.cfg.kbCapacity →
            t.alm = s.alm ∧ t.kb = { s.kb with overflow := true })
        ∧ (s.cfg.keyClass code ≠ .alarm → s.kbCount < s.cfg.kbCapacity →
            t.alm = s.alm
            ∧ t.kb = { s.kb with
                mem := t.kb.mem, wr := BitVec.ofNat 8 ((s.kb.wr.toNat + 1) % (2 * s.cfg.kbCapacity)) }
            ∧ t.kb.mem.read (s.kb.wr.toNat % s.cfg.kbCapacity) = code
            ∧ ∀ a : Nat, a ≠ s.kb.wr.toNat % s.cfg.kbCapacity → t.kb.mem.read a = s.kb.mem.read a)

/-- `POP` (43_key_buffer R222): the oldest entry is removed and returned, or "empty" is signalled and nothing changes; the
storage is not cleared. What it returns stands in the log of fired operations, the model's choice (log 10). -/
def Obligations.PopReturnsTheOldestEntry : Prop :=
  ∀ s : State, s.Ready →
    (s.queue = [] → exec .pop s = .next { s with result := 0, fired := [.pop s.ctl.now none] })
    ∧ ∀ (h : Byte) (q : List Byte), s.queue = h :: q →
      Completes .pop s fun t =>
        t = { s with
          kb := { s.kb with rd := BitVec.ofNat 8 ((s.kb.rd.toNat + 1) % (2 * s.cfg.kbCapacity)) },
          result := 0, fired := [.pop s.ctl.now (some h)] }
        ∧ t.queue = q

/-- `OVF_READ` returns the flag and clears it on request, and nothing but that and `INITIALIZE` clears it: the flag is
sticky (43_key_buffer R224). -/
def Obligations.OverflowIsStickyAndReadable : Prop :=
  Encodes 0x0B (fun w => .ovfRead (w.testBit 16))
    ∧ (∀ (s : State) (clear : Bool), s.Ready →
        exec (.ovfRead clear) s = .next { s with
          kb := { s.kb with overflow := s.kb.overflow && !clear },
          result := if s.kb.overflow = true then 1 else 0, fired := [] })
    ∧ ∀ (i : Instr) (s t : State), exec i s = .next t → s.kb.overflow = true → i ≠ .ovfRead true →
        (∀ a b c, i ≠ .initialise a b c) → t.kb.overflow = true

/-- The FIFO law (43_key_buffer R225), on the abstract content `q`: an accepted push appends, a rejected one leaves `q`, a
pop of a non-empty `q` returns and removes its head, and no other operation changes `q`, but for `INITIALIZE` and the edge
that fires `POP`. -/
def Obligations.KeyBufferIsAFifo : Prop :=
  ∀ s : State, s.Inv →
    (∀ code : Byte, s.cfg.keyClass code ≠ .alarm → s.kbCount < s.cfg.kbCapacity →
      Completes (.push code) s fun t => t.queue = s.queue ++ [code])
    ∧ (∀ code : Byte, s.cfg.keyClass code = .alarm ∨ s.kbCount = s.cfg.kbCapacity →
      Completes (.push code) s fun t => t.queue = s.queue)
    ∧ (∀ (h : Byte) (q : List Byte), s.queue = h :: q →
      Completes .pop s fun t => t.fired = [.pop s.ctl.now (some h)] ∧ t.queue = q)
    ∧ (∀ (data : Bool) (t : State), exec (.clockEdge data) s = .next t →
      t.queue = s.queue ∨ ∃ h : Byte, s.queue = h :: t.queue ∧ t.fired = [.pop s.ctl.now (some h)])
    ∧ ∀ (i : Instr) (t : State), exec i s = .next t → (∀ code, i ≠ .push code) → i ≠ .pop →
      (∀ data, i ≠ .clockEdge data) → (∀ a b c, i ≠ .initialise a b c) → t.queue = s.queue

/-- The capacity law (43_key_buffer R226): from an empty ring, one push more than the capacity leaves exactly the first
`KB_CAPACITY` codes, in order, and sets `OVERFLOW`; before the last push the flag is clear. -/
def Obligations.CapacityPlusOnePushesOverflow : Prop :=
  ∀ (s : State) (codes : List Byte) (last : Byte), s.Inv → s.kbCount = 0 → s.kb.overflow = false →
    codes.length = s.cfg.kbCapacity → (∀ code ∈ last :: codes, s.cfg.keyClass code ≠ .alarm) →
    RunsTo (codes.map .push) s fun t => t.queue = codes ∧ t.kb.overflow = false ∧
      Completes (.push last) t fun u => u.queue = codes ∧ u.kb.overflow = true

/-! ### Frame Interpreter -/

/-- `POLL` with no frame ready returns 0 and changes nothing (44_frame_interpreter R241). -/
def Obligations.PollWithNothingReady : Prop :=
  ∀ s : State, s.Ready → s.smp.frameReady = false → exec .poll s = .next (quiet s)

/-- `POLL` of a ready frame (44_frame_interpreter R241, R250): it returns 1, clears `FRAME_READY` and `STARTUP`, and reports
the module byte as a key iff it differs from `MOD_IDLE`; a command byte that is not routed leaves the lights as they are.
Outside the interpreter only `FRAME_READY` changes. -/
def Obligations.PollConsumesTheReadyFrame : Prop :=
  Encodes 0x03 (fun _ => .poll)
    ∧ ∀ s : State, s.Ready → s.smp.frameReady = true →
      Completes .poll s fun t =>
        t = { s with smp := { s.smp with frameReady := false }, itp := t.itp, result := 1, fired := [] }
        ∧ t.itp.startup = false
        ∧ (s.smp.modFrame.b0 = s.cfg.modIdle →
            t.itp.keyValue = s.itp.keyValue ∧ t.itp.keyAvailable = s.itp.keyAvailable)
        ∧ (s.smp.modFrame.b0 ≠ s.cfg.modIdle →
            t.itp.keyValue = s.smp.modFrame.b0 ∧ t.itp.keyAvailable = true)
        ∧ (s.cfg.lightRoute s.smp.cmdFrame.b0 = .none →
            t.itp.ind = s.itp.ind ∧ t.itp.st = s.itp.st ∧ t.itp.bl = s.itp.bl ∧ t.itp.indChanged = 0)

/-- `POLL` of a frame that carries a light byte (44_frame_interpreter R242, R243, R245): the routed register takes the byte;
in the routed group an indicator is seeded in the start-up cycle and recomputed where its pair of bits changed, and its
change bit says that a recomputation gave another value; the other group is untouched and its change bits are 0. -/
def Obligations.PollRecomputesTheRoutedGroup : Prop :=
  ∀ s : State, s.Ready → s.smp.frameReady = true →
    let r := s.cfg.lightRoute s.smp.cmdFrame.b0
    let v := s.smp.cmdFrame.b1
    r ≠ .none →
    Completes .poll s fun t =>
      t.itp.st = ⟨if r = .status then v else s.itp.st.b0, if r = .zone then v else s.itp.st.b1⟩
      ∧ t.itp.bl = ⟨if r = .statusBlink then v else s.itp.bl.b0, if r = .zoneBlink then v else s.itp.bl.b1⟩
      ∧ ∀ j : Fin 16,
        let zones := decide (8 ≤ j.val)
        let old := if zones then (s.itp.st.b1.getLsbD (j.val % 8), s.itp.bl.b1.getLsbD (j.val % 8))
          else (s.itp.st.b0.getLsbD (j.val % 8), s.itp.bl.b0.getLsbD (j.val % 8))
        let new := if zones then (t.itp.st.b1.getLsbD (j.val % 8), t.itp.bl.b1.getLsbD (j.val % 8))
          else (t.itp.st.b0.getLsbD (j.val % 8), t.itp.bl.b0.getLsbD (j.val % 8))
        let value := indicatorOf new.1 new.2
        if zones = decide (r = .zone ∨ r = .zoneBlink) then
          (s.itp.startup = true → t.itp.ind[j] = value ∧ t.itp.indChanged.getLsbD j.val = false)
          ∧ (s.itp.startup = false → new ≠ old →
              t.itp.ind[j] = value ∧ t.itp.indChanged.getLsbD j.val = decide (value ≠ s.itp.ind[j]))
          ∧ (s.itp.startup = false → new = old →
              t.itp.ind[j] = s.itp.ind[j] ∧ t.itp.indChanged.getLsbD j.val = false)
        else t.itp.ind[j] = s.itp.ind[j] ∧ t.itp.indChanged.getLsbD j.val = false

/-- Feeding the same frame a second time changes no indicator and sets no change bit (44_frame_interpreter R243;
95_test_vectors S2). -/
def Obligations.SecondIdenticalFrameChangesNoLight : Prop :=
  ∀ s : State, s.Ready → s.smp.frameReady = true →
    Completes .poll s fun t =>
      Completes .poll { t with smp := { t.smp with frameReady := true } } fun u =>
        u.itp.ind = t.itp.ind ∧ u.itp.indChanged = 0 ∧ u.itp.st = t.itp.st ∧ u.itp.bl = t.itp.bl

/-- The end-to-end scenario of the Ready light (44_frame_interpreter R251), under every valid configuration: from reset,
`INITIALIZE`, `START`, the frame `0x05, 0x01` with idle module bytes, `POLL`: Ready is on, the other fifteen are off. -/
def Obligations.ReadyLightFromReset : Prop :=
  ∀ (c : Config) (clockPin readPin writePin : Byte) (trace : Bool) (dt : BitVec 24), c.valid = true →
    dt.toNat ≤ c.silenceWindowUs →
    RunsTo (.initialise clockPin readPin writePin :: .start trace
        :: (Pseudo.frame 0x05 0x01 c.modIdle c.modIdle dt).expand c) (State.resetWith c) fun t =>
      Completes .poll t fun u => u.result = 1 ∧ u.itp.ind[(0 : Fin 16)] = .on
        ∧ (∀ j : Fin 16, j ≠ 0 → u.itp.ind[j] = .off) ∧ u.itp.bl.b0 = 0

/-- `FRAME_READ` returns the four bytes of the frame buffers and changes nothing (44_frame_interpreter R246). -/
def Obligations.FrameReadReturnsTheFourBytes : Prop :=
  Encodes 0x0A (fun _ => .frameRead)
    ∧ ∀ s : State, s.Ready →
      exec .frameRead s = .next { s with
        result := BitVec.ofNat 32 (s.smp.cmdFrame.b0.toNat * 2 ^ 24 + s.smp.cmdFrame.b1.toNat * 2 ^ 16
          + s.smp.modFrame.b0.toNat * 2 ^ 8 + s.smp.modFrame.b1.toNat),
        fired := [] }

/-- `KEY_READ` returns `KEY_AVAILABLE` in bit 8 and `KEY_VALUE` in bits 7..0, and changes nothing (44_frame_interpreter
R247). -/
def Obligations.KeyReadReturnsFlagAndValue : Prop :=
  Encodes 0x08 (fun _ => .keyRead)
    ∧ ∀ s : State, s.Ready →
      exec .keyRead s = .next { s with
        result := BitVec.ofNat 32 (s.itp.keyAvailable.toNat * 2 ^ 8 + s.itp.keyValue.toNat), fired := [] }

/-- `KEY_CLEAR` clears `KEY_AVAILABLE`, keeps `KEY_VALUE`, and changes nothing else (44_frame_interpreter R248). -/
def Obligations.KeyClearKeepsTheValue : Prop :=
  Encodes 0x09 (fun _ => .keyClear)
    ∧ ∀ s : State, s.Ready →
      exec .keyClear s = .next { s with
        itp := { s.itp with keyAvailable := false }, result := 0, fired := [] }

/-- `IND_READ` returns the indicator in bits 1..0 and its change bit in bit 2, and changes nothing (44_frame_interpreter
R249). -/
def Obligations.IndicatorReadReturnsStateAndChange : Prop :=
  Encodes 0x0C (fun w => .indRead (BitVec.ofNat 4 (w / 2 ^ 16)))
    ∧ ∀ (s : State) (j : Fin 16), s.Ready →
      exec (.indRead (BitVec.ofNat 4 j.val)) s = .next { s with
        result := BitVec.ofNat 32 ((match s.itp.ind[j] with | .off => 0 | .on => 1 | .blinking => 2)
          + (s.itp.indChanged.getLsbD j.val).toNat * 4),
        fired := [] }

/-! ### The whole machine -/

/-- Every step keeps the invariant, from every state that has it. -/
def Obligations.StepKeepsTheInvariant : Prop :=
  ∀ s t : State, s.Inv → step s = .next t → t.Inv

/-- In a state with the invariant no step stops: "No operation has a failing outcome" (60_exceptions R280). -/
def Obligations.StepNeverStopsUnderTheInvariant : Prop :=
  ∀ s : State, s.Inv → ∃ t : State, step s = .next t

/-- Every operation, the internal ones too, keeps the canonical form of the Key Buffer storage. -/
def Obligations.OperationsKeepTheStorageCanonical : Prop :=
  ∀ (i : Instr) (s t : State), s.StorageCanonical → exec i s = .next t → t.StorageCanonical

/-- Every step keeps the cursors in step with `CYC` (10_state R24). -/
def Obligations.StepKeepsTheCursorsAligned : Prop :=
  ∀ s t : State, s.CursorsAgree → step s = .next t → t.CursorsAgree

/-- The two contexts write only their own state (60_exceptions R286, 10_state R33), and no operation writes the
configuration (20_memory R83). HOST operations but `INITIALIZE` leave the cursors, the shift registers, the frame buffers,
the encoder, `KB_RD` and `NOW`, only clear `FRAME_READY` and only set `ALARM_DETECTED`; the others leave `KB_MEM`, `KB_WR`,
`OVERFLOW`, `ALARM_CODE`, the interpreter and the control registers but `NOW`, only set `FRAME_READY` and only clear
`ALARM_DETECTED`. -/
def Obligations.ContextsWriteOnlyTheirOwnState : Prop :=
  ∀ (i : Instr) (s t : State), exec i s = .next t →
    t.cfg = s.cfg ∧ t.inputs = s.inputs
    ∧ (i.agent = .host → (∀ a b c, i ≠ .initialise a b c) →
        t.smp = { s.smp with frameReady := t.smp.frameReady, lastEdge := t.smp.lastEdge, silArmed := t.smp.silArmed }
        ∧ t.enc = s.enc ∧ t.kb.rd = s.kb.rd ∧ t.ctl.now = s.ctl.now
        ∧ t.alm = { s.alm with detected := t.alm.detected, code := t.alm.code }
        ∧ (s.smp.frameReady = false → t.smp.frameReady = false)
        ∧ (s.alm.detected = true → t.alm.detected = true))
    ∧ (i.agent ≠ .host →
        t.kb = { s.kb with rd := t.kb.rd } ∧ t.itp = s.itp ∧ t.ctl = { s.ctl with now := t.ctl.now }
        ∧ t.alm.code = s.alm.code
        ∧ (s.smp.frameReady = true → t.smp.frameReady = true)
        ∧ (s.alm.detected = false → t.alm.detected = false))
end

