-- ==== Sys2Proof/Laws/State.lean ====
section
/-! SUPPORT. What each named update of State leaves in each field, one lemma per field per update, true by rfl. -/

namespace Sys2Proof.Machine

variable (s : State)

@[simp] theorem State.withCtl_cfg (x : Control) : (s.withCtl x).cfg = s.cfg := rfl
@[simp] theorem State.withCtl_ctl (x : Control) : (s.withCtl x).ctl = x := rfl
@[simp] theorem State.withCtl_smp (x : Control) : (s.withCtl x).smp = s.smp := rfl
@[simp] theorem State.withCtl_enc (x : Control) : (s.withCtl x).enc = s.enc := rfl
@[simp] theorem State.withCtl_alm (x : Control) : (s.withCtl x).alm = s.alm := rfl
@[simp] theorem State.withCtl_kb (x : Control) : (s.withCtl x).kb = s.kb := rfl
@[simp] theorem State.withCtl_ac (x : Control) : (s.withCtl x).ac = s.ac := rfl
@[simp] theorem State.withCtl_itp (x : Control) : (s.withCtl x).itp = s.itp := rfl
@[simp] theorem State.withCtl_inputs (x : Control) : (s.withCtl x).inputs = s.inputs := rfl
@[simp] theorem State.withCtl_result (x : Control) : (s.withCtl x).result = s.result := rfl
@[simp] theorem State.withCtl_fired (x : Control) : (s.withCtl x).fired = s.fired := rfl

@[simp] theorem State.withSmp_cfg (x : Sampler) : (s.withSmp x).cfg = s.cfg := rfl
@[simp] theorem State.withSmp_ctl (x : Sampler) : (s.withSmp x).ctl = s.ctl := rfl
@[simp] theorem State.withSmp_smp (x : Sampler) : (s.withSmp x).smp = x := rfl
@[simp] theorem State.withSmp_enc (x : Sampler) : (s.withSmp x).enc = s.enc := rfl
@[simp] theorem State.withSmp_alm (x : Sampler) : (s.withSmp x).alm = s.alm := rfl
@[simp] theorem State.withSmp_kb (x : Sampler) : (s.withSmp x).kb = s.kb := rfl
@[simp] theorem State.withSmp_ac (x : Sampler) : (s.withSmp x).ac = s.ac := rfl
@[simp] theorem State.withSmp_itp (x : Sampler) : (s.withSmp x).itp = s.itp := rfl
@[simp] theorem State.withSmp_inputs (x : Sampler) : (s.withSmp x).inputs = s.inputs := rfl
@[simp] theorem State.withSmp_result (x : Sampler) : (s.withSmp x).result = s.result := rfl
@[simp] theorem State.withSmp_fired (x : Sampler) : (s.withSmp x).fired = s.fired := rfl

@[simp] theorem State.withEnc_cfg (x : Encoder) : (s.withEnc x).cfg = s.cfg := rfl
@[simp] theorem State.withEnc_ctl (x : Encoder) : (s.withEnc x).ctl = s.ctl := rfl
@[simp] theorem State.withEnc_smp (x : Encoder) : (s.withEnc x).smp = s.smp := rfl
@[simp] theorem State.withEnc_enc (x : Encoder) : (s.withEnc x).enc = x := rfl
@[simp] theorem State.withEnc_alm (x : Encoder) : (s.withEnc x).alm = s.alm := rfl
@[simp] theorem State.withEnc_kb (x : Encoder) : (s.withEnc x).kb = s.kb := rfl
@[simp] theorem State.withEnc_ac (x : Encoder) : (s.withEnc x).ac = s.ac := rfl
@[simp] theorem State.withEnc_itp (x : Encoder) : (s.withEnc x).itp = s.itp := rfl
@[simp] theorem State.withEnc_inputs (x : Encoder) : (s.withEnc x).inputs = s.inputs := rfl
@[simp] theorem State.withEnc_result (x : Encoder) : (s.withEnc x).result = s.result := rfl
@[simp] theorem State.withEnc_fired (x : Encoder) : (s.withEnc x).fired = s.fired := rfl

@[simp] theorem State.withAlm_cfg (x : AlarmPath) : (s.withAlm x).cfg = s.cfg := rfl
@[simp] theorem State.withAlm_ctl (x : AlarmPath) : (s.withAlm x).ctl = s.ctl := rfl
@[simp] theorem State.withAlm_smp (x : AlarmPath) : (s.withAlm x).smp = s.smp := rfl
@[simp] theorem State.withAlm_enc (x : AlarmPath) : (s.withAlm x).enc = s.enc := rfl
@[simp] theorem State.withAlm_alm (x : AlarmPath) : (s.withAlm x).alm = x := rfl
@[simp] theorem State.withAlm_kb (x : AlarmPath) : (s.withAlm x).kb = s.kb := rfl
@[simp] theorem State.withAlm_ac (x : AlarmPath) : (s.withAlm x).ac = s.ac := rfl
@[simp] theorem State.withAlm_itp (x : AlarmPath) : (s.withAlm x).itp = s.itp := rfl
@[simp] theorem State.withAlm_inputs (x : AlarmPath) : (s.withAlm x).inputs = s.inputs := rfl
@[simp] theorem State.withAlm_result (x : AlarmPath) : (s.withAlm x).result = s.result := rfl
@[simp] theorem State.withAlm_fired (x : AlarmPath) : (s.withAlm x).fired = s.fired := rfl

@[simp] theorem State.withKb_cfg (x : KeyBuffer) : (s.withKb x).cfg = s.cfg := rfl
@[simp] theorem State.withKb_ctl (x : KeyBuffer) : (s.withKb x).ctl = s.ctl := rfl
@[simp] theorem State.withKb_smp (x : KeyBuffer) : (s.withKb x).smp = s.smp := rfl
@[simp] theorem State.withKb_enc (x : KeyBuffer) : (s.withKb x).enc = s.enc := rfl
@[simp] theorem State.withKb_alm (x : KeyBuffer) : (s.withKb x).alm = s.alm := rfl
@[simp] theorem State.withKb_kb (x : KeyBuffer) : (s.withKb x).kb = x := rfl
@[simp] theorem State.withKb_ac (x : KeyBuffer) : (s.withKb x).ac = s.ac := rfl
@[simp] theorem State.withKb_itp (x : KeyBuffer) : (s.withKb x).itp = s.itp := rfl
@[simp] theorem State.withKb_inputs (x : KeyBuffer) : (s.withKb x).inputs = s.inputs := rfl
@[simp] theorem State.withKb_result (x : KeyBuffer) : (s.withKb x).result = s.result := rfl
@[simp] theorem State.withKb_fired (x : KeyBuffer) : (s.withKb x).fired = s.fired := rfl

@[simp] theorem State.withAc_cfg (x : Acoustic) : (s.withAc x).cfg = s.cfg := rfl
@[simp] theorem State.withAc_ctl (x : Acoustic) : (s.withAc x).ctl = s.ctl := rfl
@[simp] theorem State.withAc_smp (x : Acoustic) : (s.withAc x).smp = s.smp := rfl
@[simp] theorem State.withAc_enc (x : Acoustic) : (s.withAc x).enc = s.enc := rfl
@[simp] theorem State.withAc_alm (x : Acoustic) : (s.withAc x).alm = s.alm := rfl
@[simp] theorem State.withAc_kb (x : Acoustic) : (s.withAc x).kb = s.kb := rfl
@[simp] theorem State.withAc_ac (x : Acoustic) : (s.withAc x).ac = x := rfl
@[simp] theorem State.withAc_itp (x : Acoustic) : (s.withAc x).itp = s.itp := rfl
@[simp] theorem State.withAc_inputs (x : Acoustic) : (s.withAc x).inputs = s.inputs := rfl
@[simp] theorem State.withAc_result (x : Acoustic) : (s.withAc x).result = s.result := rfl
@[simp] theorem State.withAc_fired (x : Acoustic) : (s.withAc x).fired = s.fired := rfl

@[simp] theorem State.withItp_cfg (x : Interpreter) : (s.withItp x).cfg = s.cfg := rfl
@[simp] theorem State.withItp_ctl (x : Interpreter) : (s.withItp x).ctl = s.ctl := rfl
@[simp] theorem State.withItp_smp (x : Interpreter) : (s.withItp x).smp = s.smp := rfl
@[simp] theorem State.withItp_enc (x : Interpreter) : (s.withItp x).enc = s.enc := rfl
@[simp] theorem State.withItp_alm (x : Interpreter) : (s.withItp x).alm = s.alm := rfl
@[simp] theorem State.withItp_kb (x : Interpreter) : (s.withItp x).kb = s.kb := rfl
@[simp] theorem State.withItp_ac (x : Interpreter) : (s.withItp x).ac = s.ac := rfl
@[simp] theorem State.withItp_itp (x : Interpreter) : (s.withItp x).itp = x := rfl
@[simp] theorem State.withItp_inputs (x : Interpreter) : (s.withItp x).inputs = s.inputs := rfl
@[simp] theorem State.withItp_result (x : Interpreter) : (s.withItp x).result = s.result := rfl
@[simp] theorem State.withItp_fired (x : Interpreter) : (s.withItp x).fired = s.fired := rfl

@[simp] theorem State.withInputs_cfg (x : List Word) : (s.withInputs x).cfg = s.cfg := rfl
@[simp] theorem State.withInputs_ctl (x : List Word) : (s.withInputs x).ctl = s.ctl := rfl
@[simp] theorem State.withInputs_smp (x : List Word) : (s.withInputs x).smp = s.smp := rfl
@[simp] theorem State.withInputs_enc (x : List Word) : (s.withInputs x).enc = s.enc := rfl
@[simp] theorem State.withInputs_alm (x : List Word) : (s.withInputs x).alm = s.alm := rfl
@[simp] theorem State.withInputs_kb (x : List Word) : (s.withInputs x).kb = s.kb := rfl
@[simp] theorem State.withInputs_ac (x : List Word) : (s.withInputs x).ac = s.ac := rfl
@[simp] theorem State.withInputs_itp (x : List Word) : (s.withInputs x).itp = s.itp := rfl
@[simp] theorem State.withInputs_inputs (x : List Word) : (s.withInputs x).inputs = x := rfl
@[simp] theorem State.withInputs_result (x : List Word) : (s.withInputs x).result = s.result := rfl
@[simp] theorem State.withInputs_fired (x : List Word) : (s.withInputs x).fired = s.fired := rfl

@[simp] theorem State.withResult_cfg (x : Word) : (s.withResult x).cfg = s.cfg := rfl
@[simp] theorem State.withResult_ctl (x : Word) : (s.withResult x).ctl = s.ctl := rfl
@[simp] theorem State.withResult_smp (x : Word) : (s.withResult x).smp = s.smp := rfl
@[simp] theorem State.withResult_enc (x : Word) : (s.withResult x).enc = s.enc := rfl
@[simp] theorem State.withResult_alm (x : Word) : (s.withResult x).alm = s.alm := rfl
@[simp] theorem State.withResult_kb (x : Word) : (s.withResult x).kb = s.kb := rfl
@[simp] theorem State.withResult_ac (x : Word) : (s.withResult x).ac = s.ac := rfl
@[simp] theorem State.withResult_itp (x : Word) : (s.withResult x).itp = s.itp := rfl
@[simp] theorem State.withResult_inputs (x : Word) : (s.withResult x).inputs = s.inputs := rfl
@[simp] theorem State.withResult_result (x : Word) : (s.withResult x).result = x := rfl
@[simp] theorem State.withResult_fired (x : Word) : (s.withResult x).fired = s.fired := rfl

@[simp] theorem State.withFired_cfg (x : List Event) : (s.withFired x).cfg = s.cfg := rfl
@[simp] theorem State.withFired_ctl (x : List Event) : (s.withFired x).ctl = s.ctl := rfl
@[simp] theorem State.withFired_smp (x : List Event) : (s.withFired x).smp = s.smp := rfl
@[simp] theorem State.withFired_enc (x : List Event) : (s.withFired x).enc = s.enc := rfl
@[simp] theorem State.withFired_alm (x : List Event) : (s.withFired x).alm = s.alm := rfl
@[simp] theorem State.withFired_kb (x : List Event) : (s.withFired x).kb = s.kb := rfl
@[simp] theorem State.withFired_ac (x : List Event) : (s.withFired x).ac = s.ac := rfl
@[simp] theorem State.withFired_itp (x : List Event) : (s.withFired x).itp = s.itp := rfl
@[simp] theorem State.withFired_inputs (x : List Event) : (s.withFired x).inputs = s.inputs := rfl
@[simp] theorem State.withFired_result (x : List Event) : (s.withFired x).result = s.result := rfl
@[simp] theorem State.withFired_fired (x : List Event) : (s.withFired x).fired = x := rfl

end Sys2Proof.Machine
end

