-- ==== Sys2Proof/Laws/Ops.lean ====
section
/-! SUPPORT. What the shared operations of Machine/Ops.lean do: the frame of one operation, time, byte pairs, and the laws
of the Key Buffer storage. -/

namespace Sys2Proof.Machine

/-! ### The frame of one operation -/

/-- An operation that answers a next state ran in a ready state, and this is the state it answers. -/
theorem operate_eq_next {s t : State} {op : State → State × Word} :
    operate s op = .next t ↔ s.cfg.valid = true ∧ s.formed = true ∧ t = finish (op (s.withFired [])) := by
  unfold operate
  split <;> rename_i hv
  · split <;> rename_i hf
    · simp [hv, hf, eq_comm]
    · simp [hf]
  · simp [hv]

/-- In a ready state an operation completes. -/
theorem operate_of_ready {s : State} (hv : s.cfg.valid = true) (hf : s.formed = true)
    (op : State → State × Word) : operate s op = .next (finish (op (s.withFired []))) := by
  simp [operate, hv, hf]

/-- Under a configuration that breaks a constraint every operation is refused. -/
theorem operate_invalid {s : State} (hv : s.cfg.valid = false) (op : State → State × Word) :
    operate s op = .refused .invalidConfiguration := by
  simp [operate, hv]

/-- In a state with an encoding that never occurs every operation is refused. -/
theorem operate_unformed {s : State} (hv : s.cfg.valid = true) (hf : s.formed = false)
    (op : State → State × Word) : operate s op = .refused .unreachableState := by
  simp [operate, hv, hf]

/-- The log and the result word take no part in whether a state is ready. -/
@[simp] theorem formed_withFired (s : State) (x : List Event) : (s.withFired x).formed = s.formed := rfl

@[simp] theorem formed_withResult (s : State) (x : Word) : (s.withResult x).formed = s.formed := rfl

@[simp] theorem formed_withInputs (s : State) (x : List Word) : (s.withInputs x).formed = s.formed := rfl

/-! ### Time -/

@[simp] theorem State.tick_now (s : State) (n : Nat) : (s.tick n).ctl.now = s.ctl.now + BitVec.ofNat 32 n := rfl

@[simp] theorem State.tick_running (s : State) (n : Nat) : (s.tick n).ctl.running = s.ctl.running := rfl

@[simp] theorem State.tick_bound (s : State) (n : Nat) : (s.tick n).ctl.bound = s.ctl.bound := rfl

@[simp] theorem State.tick_cfg (s : State) (n : Nat) : (s.tick n).cfg = s.cfg := rfl

@[simp] theorem State.tick_smp (s : State) (n : Nat) : (s.tick n).smp = s.smp := rfl

@[simp] theorem State.tick_enc (s : State) (n : Nat) : (s.tick n).enc = s.enc := rfl

@[simp] theorem State.tick_alm (s : State) (n : Nat) : (s.tick n).alm = s.alm := rfl

@[simp] theorem State.tick_kb (s : State) (n : Nat) : (s.tick n).kb = s.kb := rfl

@[simp] theorem State.tick_ac (s : State) (n : Nat) : (s.tick n).ac = s.ac := rfl

@[simp] theorem State.tick_itp (s : State) (n : Nat) : (s.tick n).itp = s.itp := rfl

@[simp] theorem State.tick_inputs (s : State) (n : Nat) : (s.tick n).inputs = s.inputs := rfl

@[simp] theorem State.tick_result (s : State) (n : Nat) : (s.tick n).result = s.result := rfl

@[simp] theorem State.tick_fired (s : State) (n : Nat) : (s.tick n).fired = s.fired := rfl

/-- Time that has not wrapped past a stamp adds up. -/
theorem State.elapsed_tick (s : State) (n : Nat) (t : Time) (h : s.elapsed t + n < 2 ^ 32) :
    (s.tick n).elapsed t = s.elapsed t + n := by
  have hn : n < 2 ^ 32 := by omega
  simp only [State.elapsed, State.tick_now] at *
  rw [show s.ctl.now + BitVec.ofNat 32 n - t = (s.ctl.now - t) + BitVec.ofNat 32 n by
    rw [BitVec.sub_eq_add_neg, BitVec.sub_eq_add_neg, BitVec.add_assoc, BitVec.add_assoc,
      BitVec.add_comm (BitVec.ofNat 32 n)]]
  rw [BitVec.toNat_add, BitVec.toNat_ofNat, Nat.mod_eq_of_lt hn, Nat.mod_eq_of_lt h]

/-! ### Byte pairs -/

@[simp] theorem BytePair.get_zero (p : BytePair) : p.get 0#1 = p.b0 := rfl

@[simp] theorem BytePair.get_one (p : BytePair) : p.get 1#1 = p.b1 := rfl

/-- A one-bit index is 0 or 1. -/
theorem index_cases (i : BitVec 1) : i = 0#1 ∨ i = 1#1 := by
  revert i; decide

@[simp] theorem BytePair.get_set_same (p : BytePair) (i : BitVec 1) (v : Byte) : (p.set i v).get i = v := by
  rcases index_cases i with rfl | rfl <;> rfl

theorem BytePair.get_set_other (p : BytePair) {i j : BitVec 1} (v : Byte) (h : i ≠ j) :
    (p.set i v).get j = p.get j := by
  rcases index_cases i with rfl | rfl <;> rcases index_cases j with rfl | rfl <;>
    first | rfl | exact absurd rfl h

/-! ### The Key Buffer storage -/

/-- A larger lower bound is a stronger form. -/
theorem Memory.wfFrom_mono {lo lo' : Nat} (h : lo' ≤ lo) :
    ∀ {m : Memory}, Memory.wfFrom lo m = true → Memory.wfFrom lo' m = true
  | [], _ => rfl
  | (a, v) :: m, hm => by
    simp only [Memory.wfFrom, Bool.and_eq_true, decide_eq_true_eq] at hm ⊢
    exact ⟨⟨by omega, hm.1.2⟩, hm.2⟩

/-- Below the first listed index everything reads 0x00. -/
theorem Memory.read_of_lt {lo i : Nat} (h : i < lo) :
    ∀ {m : Memory}, Memory.wfFrom lo m = true → Memory.read m i = 0#8
  | [], _ => rfl
  | (a, v) :: m, hm => by
    simp only [Memory.wfFrom, Bool.and_eq_true, decide_eq_true_eq] at hm
    have ha : ¬ a = i := by omega
    rw [Memory.read, if_neg ha]
    exact Memory.read_of_lt (by omega) hm.2

/-- Writing at or above the lower bound keeps the canonical form. -/
theorem Memory.write_wfFrom {i : Nat} (v : Byte) :
    ∀ {lo : Nat} {m : Memory}, lo ≤ i → Memory.wfFrom lo m = true → Memory.wfFrom lo (m.write i v) = true
  | lo, [], hi, _ => by
    by_cases hv : v = 0#8 <;> simp [Memory.write, Memory.wfFrom, hv, hi]
  | lo, (a, w) :: m, hi, hm => by
    have hm' := hm
    simp only [Memory.wfFrom, Bool.and_eq_true, decide_eq_true_eq] at hm
    obtain ⟨⟨hlo, hw⟩, htail⟩ := hm
    rw [Memory.write]
    split
    · split
      · exact hm'
      · rename_i hlt hv
        simp only [Memory.wfFrom, Bool.and_eq_true, decide_eq_true_eq]
        exact ⟨⟨hi, hv⟩, ⟨by omega, hw⟩, htail⟩
    · split
      · rename_i heq
        subst heq
        split
        · exact Memory.wfFrom_mono (by omega) htail
        · rename_i hv
          simp only [Memory.wfFrom, Bool.and_eq_true, decide_eq_true_eq]
          exact ⟨⟨hi, hv⟩, htail⟩
      · simp only [Memory.wfFrom, Bool.and_eq_true, decide_eq_true_eq]
        exact ⟨⟨hlo, hw⟩, Memory.write_wfFrom v (by omega) htail⟩

/-- Every write keeps the canonical form. -/
theorem Memory.write_wf (m : Memory) (i : Nat) (v : Byte) (h : m.wf = true) : (m.write i v).wf = true :=
  Memory.write_wfFrom v (Nat.zero_le i) h

/-- Every write inside the storage leaves no cell outside it. -/
theorem Memory.write_below {n i : Nat} (v : Byte) (hi : i < n) :
    ∀ {m : Memory}, Memory.below m n = true → Memory.below (m.write i v) n = true
  | [], _ => by
    by_cases hv : v = 0#8 <;> simp [Memory.write, Memory.below, hv, hi]
  | (a, w) :: m, hm => by
    simp only [Memory.below, List.all_cons, Bool.and_eq_true, decide_eq_true_eq] at hm
    have ih : Memory.below (Memory.write m i v) n = true := Memory.write_below v hi hm.2
    rw [Memory.write]
    split
    · split <;> simp only [Memory.below, List.all_cons, Bool.and_eq_true, decide_eq_true_eq]
      · exact hm
      · exact ⟨hi, hm⟩
    · split
      · split
        · exact hm.2
        · simp only [Memory.below, List.all_cons, Bool.and_eq_true, decide_eq_true_eq]
          exact ⟨hi, hm.2⟩
      · simp only [Memory.below, List.all_cons, Bool.and_eq_true, decide_eq_true_eq]
        exact ⟨hm.1, ih⟩

/-- A read after a write to the same index gives the value written. -/
theorem Memory.read_write_same {i : Nat} (v : Byte) :
    ∀ {lo : Nat} {m : Memory}, Memory.wfFrom lo m = true → (m.write i v).read i = v
  | _, [], _ => by
    by_cases hv : v = 0#8 <;> simp [Memory.write, Memory.read, hv]
  | _, (a, w) :: m, hm => by
    have hm' := hm
    simp only [Memory.wfFrom, Bool.and_eq_true, decide_eq_true_eq] at hm
    rw [Memory.write]
    split
    · rename_i hlt
      split
      · rename_i hv
        subst hv
        have ha : ¬ a = i := by omega
        rw [Memory.read, if_neg ha]
        exact Memory.read_of_lt (by omega) hm.2
      · simp [Memory.read]
    · split
      · rename_i heq
        subst heq
        split
        · rename_i hv
          subst hv
          exact Memory.read_of_lt (Nat.lt_succ_self i) hm.2
        · simp [Memory.read]
      · rename_i hne
        rw [Memory.read, if_neg (fun h => hne h.symm)]
        exact Memory.read_write_same v hm.2

/-- A write leaves every other index alone. -/
theorem Memory.read_write_other {i j : Nat} (v : Byte) (h : i ≠ j) :
    ∀ {m : Memory}, (m.write i v).read j = m.read j
  | [] => by
    by_cases hv : v = 0#8 <;> simp [Memory.write, Memory.read, hv, h]
  | (a, w) :: m => by
    have ih := Memory.read_write_other v h (m := m)
    rw [Memory.write]
    split
    · split
      · rfl
      · rw [Memory.read, if_neg h]
    · split
      · rename_i heq
        subst heq
        split
        · rw [Memory.read, if_neg h]
        · rw [Memory.read, if_neg h, Memory.read, if_neg h]
      · rw [Memory.read, Memory.read, ih]

/-- The reset storage has the canonical form. -/
theorem reset_storage_wf (c : Config) : (State.resetWith c).kb.mem.wf = true := rfl

end Sys2Proof.Machine
end

