-- ==== Sys2Proof/Laws/Frames.lean ====
section
/-! SUPPORT. The frames of the shared operations: the sub-blocks each of them leaves unchanged, one lemma per operation and
sub-block. -/

namespace Sys2Proof.Machine

variable (s : State)

@[simp] theorem log_fired (e : Event) : (s.log e).fired = s.fired ++ [e] := rfl

@[simp] theorem log_cfg (e : Event) : (s.log e).cfg = s.cfg := rfl

@[simp] theorem log_ctl (e : Event) : (s.log e).ctl = s.ctl := rfl

@[simp] theorem log_smp (e : Event) : (s.log e).smp = s.smp := rfl

@[simp] theorem log_enc (e : Event) : (s.log e).enc = s.enc := rfl

@[simp] theorem log_alm (e : Event) : (s.log e).alm = s.alm := rfl

@[simp] theorem log_kb (e : Event) : (s.log e).kb = s.kb := rfl

@[simp] theorem log_ac (e : Event) : (s.log e).ac = s.ac := rfl

@[simp] theorem log_itp (e : Event) : (s.log e).itp = s.itp := rfl

@[simp] theorem log_inputs (e : Event) : (s.log e).inputs = s.inputs := rfl

@[simp] theorem log_result (e : Event) : (s.log e).result = s.result := rfl

/-! ### pushAlarm -/

@[simp] theorem pushAlarm_cfg (code : Byte) : (pushAlarm code s).cfg = s.cfg := by
  unfold pushAlarm; split <;> rfl

@[simp] theorem pushAlarm_ctl (code : Byte) : (pushAlarm code s).ctl = s.ctl := by
  unfold pushAlarm; split <;> rfl

@[simp] theorem pushAlarm_smp (code : Byte) : (pushAlarm code s).smp = s.smp := by
  unfold pushAlarm; split <;> rfl

@[simp] theorem pushAlarm_enc (code : Byte) : (pushAlarm code s).enc = s.enc := by
  unfold pushAlarm; split <;> rfl

@[simp] theorem pushAlarm_ac (code : Byte) : (pushAlarm code s).ac = s.ac := by
  unfold pushAlarm; split <;> rfl

@[simp] theorem pushAlarm_itp (code : Byte) : (pushAlarm code s).itp = s.itp := by
  unfold pushAlarm; split <;> rfl

@[simp] theorem pushAlarm_inputs (code : Byte) : (pushAlarm code s).inputs = s.inputs := by
  unfold pushAlarm; split <;> rfl

@[simp] theorem pushAlarm_result (code : Byte) : (pushAlarm code s).result = s.result := by
  unfold pushAlarm; split <;> rfl

@[simp] theorem pushAlarm_fired (code : Byte) : (pushAlarm code s).fired = s.fired := by
  unfold pushAlarm; split <;> rfl

/-! ### pushRing -/

@[simp] theorem pushRing_cfg (code : Byte) : (pushRing code s).cfg = s.cfg := by
  unfold pushRing; split <;> rfl

@[simp] theorem pushRing_ctl (code : Byte) : (pushRing code s).ctl = s.ctl := by
  unfold pushRing; split <;> rfl

@[simp] theorem pushRing_smp (code : Byte) : (pushRing code s).smp = s.smp := by
  unfold pushRing; split <;> rfl

@[simp] theorem pushRing_enc (code : Byte) : (pushRing code s).enc = s.enc := by
  unfold pushRing; split <;> rfl

@[simp] theorem pushRing_alm (code : Byte) : (pushRing code s).alm = s.alm := by
  unfold pushRing; split <;> rfl

@[simp] theorem pushRing_ac (code : Byte) : (pushRing code s).ac = s.ac := by
  unfold pushRing; split <;> rfl

@[simp] theorem pushRing_itp (code : Byte) : (pushRing code s).itp = s.itp := by
  unfold pushRing; split <;> rfl

@[simp] theorem pushRing_inputs (code : Byte) : (pushRing code s).inputs = s.inputs := by
  unfold pushRing; split <;> rfl

@[simp] theorem pushRing_result (code : Byte) : (pushRing code s).result = s.result := by
  unfold pushRing; split <;> rfl

@[simp] theorem pushRing_fired (code : Byte) : (pushRing code s).fired = s.fired := by
  unfold pushRing; split <;> rfl

/-! ### pushKey -/

@[simp] theorem pushKey_cfg (code : Byte) : (pushKey code s).cfg = s.cfg := by
  unfold pushKey; split <;> simp

@[simp] theorem pushKey_ctl (code : Byte) : (pushKey code s).ctl = s.ctl := by
  unfold pushKey; split <;> simp

@[simp] theorem pushKey_smp (code : Byte) : (pushKey code s).smp = s.smp := by
  unfold pushKey; split <;> simp

@[simp] theorem pushKey_enc (code : Byte) : (pushKey code s).enc = s.enc := by
  unfold pushKey; split <;> simp

@[simp] theorem pushKey_ac (code : Byte) : (pushKey code s).ac = s.ac := by
  unfold pushKey; split <;> simp

@[simp] theorem pushKey_itp (code : Byte) : (pushKey code s).itp = s.itp := by
  unfold pushKey; split <;> simp

@[simp] theorem pushKey_inputs (code : Byte) : (pushKey code s).inputs = s.inputs := by
  unfold pushKey; split <;> simp

@[simp] theorem pushKey_result (code : Byte) : (pushKey code s).result = s.result := by
  unfold pushKey; split <;> simp

@[simp] theorem pushKey_fired (code : Byte) : (pushKey code s).fired = s.fired := by
  unfold pushKey; split <;> simp

/-! ### popKey -/

@[simp] theorem popKey_cfg : (popKey s).cfg = s.cfg := by
  unfold popKey; split <;> rfl

@[simp] theorem popKey_ctl : (popKey s).ctl = s.ctl := by
  unfold popKey; split <;> rfl

@[simp] theorem popKey_smp : (popKey s).smp = s.smp := by
  unfold popKey; split <;> rfl

@[simp] theorem popKey_enc : (popKey s).enc = s.enc := by
  unfold popKey; split <;> rfl

@[simp] theorem popKey_alm : (popKey s).alm = s.alm := by
  unfold popKey; split <;> rfl

@[simp] theorem popKey_ac : (popKey s).ac = s.ac := by
  unfold popKey; split <;> rfl

@[simp] theorem popKey_itp : (popKey s).itp = s.itp := by
  unfold popKey; split <;> rfl

@[simp] theorem popKey_inputs : (popKey s).inputs = s.inputs := by
  unfold popKey; split <;> rfl

@[simp] theorem popKey_result : (popKey s).result = s.result := by
  unfold popKey; split <;> rfl

/-! ### clearOverflow -/

@[simp] theorem clearOverflow_cfg (clear : Bool) : (clearOverflow clear s).cfg = s.cfg := by
  unfold clearOverflow; split <;> rfl

@[simp] theorem clearOverflow_ctl (clear : Bool) : (clearOverflow clear s).ctl = s.ctl := by
  unfold clearOverflow; split <;> rfl

@[simp] theorem clearOverflow_smp (clear : Bool) : (clearOverflow clear s).smp = s.smp := by
  unfold clearOverflow; split <;> rfl

@[simp] theorem clearOverflow_enc (clear : Bool) : (clearOverflow clear s).enc = s.enc := by
  unfold clearOverflow; split <;> rfl

@[simp] theorem clearOverflow_alm (clear : Bool) : (clearOverflow clear s).alm = s.alm := by
  unfold clearOverflow; split <;> rfl

@[simp] theorem clearOverflow_ac (clear : Bool) : (clearOverflow clear s).ac = s.ac := by
  unfold clearOverflow; split <;> rfl

@[simp] theorem clearOverflow_itp (clear : Bool) : (clearOverflow clear s).itp = s.itp := by
  unfold clearOverflow; split <;> rfl

@[simp] theorem clearOverflow_inputs (clear : Bool) : (clearOverflow clear s).inputs = s.inputs := by
  unfold clearOverflow; split <;> rfl

@[simp] theorem clearOverflow_result (clear : Bool) : (clearOverflow clear s).result = s.result := by
  unfold clearOverflow; split <;> rfl

@[simp] theorem clearOverflow_fired (clear : Bool) : (clearOverflow clear s).fired = s.fired := by
  unfold clearOverflow; split <;> rfl

/-! ### acAccept -/

@[simp] theorem acAccept_cfg (r : Request) : (acAccept r s).cfg = s.cfg := by
  unfold acAccept; split <;> [(split <;> rfl); rfl]

@[simp] theorem acAccept_ctl (r : Request) : (acAccept r s).ctl = s.ctl := by
  unfold acAccept; split <;> [(split <;> rfl); rfl]

@[simp] theorem acAccept_smp (r : Request) : (acAccept r s).smp = s.smp := by
  unfold acAccept; split <;> [(split <;> rfl); rfl]

@[simp] theorem acAccept_enc (r : Request) : (acAccept r s).enc = s.enc := by
  unfold acAccept; split <;> [(split <;> rfl); rfl]

@[simp] theorem acAccept_alm (r : Request) : (acAccept r s).alm = s.alm := by
  unfold acAccept; split <;> [(split <;> rfl); rfl]

@[simp] theorem acAccept_kb (r : Request) : (acAccept r s).kb = s.kb := by
  unfold acAccept; split <;> [(split <;> rfl); rfl]

@[simp] theorem acAccept_itp (r : Request) : (acAccept r s).itp = s.itp := by
  unfold acAccept; split <;> [(split <;> rfl); rfl]

@[simp] theorem acAccept_inputs (r : Request) : (acAccept r s).inputs = s.inputs := by
  unfold acAccept; split <;> [(split <;> rfl); rfl]

@[simp] theorem acAccept_result (r : Request) : (acAccept r s).result = s.result := by
  unfold acAccept; split <;> [(split <;> rfl); rfl]

@[simp] theorem acAccept_fired (r : Request) : (acAccept r s).fired = s.fired := by
  unfold acAccept; split <;> [(split <;> rfl); rfl]

/-! ### acRequest -/

@[simp] theorem acRequest_cfg (r : Option Request) : (acRequest r s).cfg = s.cfg := by
  cases r <;> simp [acRequest]

@[simp] theorem acRequest_ctl (r : Option Request) : (acRequest r s).ctl = s.ctl := by
  cases r <;> simp [acRequest]

@[simp] theorem acRequest_smp (r : Option Request) : (acRequest r s).smp = s.smp := by
  cases r <;> simp [acRequest]

@[simp] theorem acRequest_enc (r : Option Request) : (acRequest r s).enc = s.enc := by
  cases r <;> simp [acRequest]

@[simp] theorem acRequest_alm (r : Option Request) : (acRequest r s).alm = s.alm := by
  cases r <;> simp [acRequest]

@[simp] theorem acRequest_kb (r : Option Request) : (acRequest r s).kb = s.kb := by
  cases r <;> simp [acRequest]

@[simp] theorem acRequest_itp (r : Option Request) : (acRequest r s).itp = s.itp := by
  cases r <;> simp [acRequest]

@[simp] theorem acRequest_inputs (r : Option Request) : (acRequest r s).inputs = s.inputs := by
  cases r <;> simp [acRequest]

@[simp] theorem acRequest_result (r : Option Request) : (acRequest r s).result = s.result := by
  cases r <;> simp [acRequest]

@[simp] theorem acRequest_fired (r : Option Request) : (acRequest r s).fired = s.fired := by
  cases r <;> simp [acRequest]

/-! ### fireAcousticBoundary -/

@[simp] theorem fireAcousticBoundary_cfg : (fireAcousticBoundary s).cfg = s.cfg := rfl

@[simp] theorem fireAcousticBoundary_ctl : (fireAcousticBoundary s).ctl = s.ctl := rfl

@[simp] theorem fireAcousticBoundary_smp : (fireAcousticBoundary s).smp = s.smp := rfl

@[simp] theorem fireAcousticBoundary_enc : (fireAcousticBoundary s).enc = s.enc := rfl

@[simp] theorem fireAcousticBoundary_alm : (fireAcousticBoundary s).alm = s.alm := rfl

@[simp] theorem fireAcousticBoundary_kb : (fireAcousticBoundary s).kb = s.kb := rfl

@[simp] theorem fireAcousticBoundary_itp : (fireAcousticBoundary s).itp = s.itp := rfl

@[simp] theorem fireAcousticBoundary_inputs : (fireAcousticBoundary s).inputs = s.inputs := rfl

@[simp] theorem fireAcousticBoundary_result : (fireAcousticBoundary s).result = s.result := rfl

/-! ### selectKey -/

@[simp] theorem selectKey_cfg : (selectKey s).cfg = s.cfg := rfl

@[simp] theorem selectKey_ctl : (selectKey s).ctl = s.ctl := rfl

@[simp] theorem selectKey_smp : (selectKey s).smp = s.smp := rfl

@[simp] theorem selectKey_alm : (selectKey s).alm = s.alm := rfl

@[simp] theorem selectKey_kb : (selectKey s).kb = s.kb := rfl

@[simp] theorem selectKey_ac : (selectKey s).ac = s.ac := rfl

@[simp] theorem selectKey_itp : (selectKey s).itp = s.itp := rfl

@[simp] theorem selectKey_inputs : (selectKey s).inputs = s.inputs := rfl

@[simp] theorem selectKey_result : (selectKey s).result = s.result := rfl

@[simp] theorem selectKey_fired : (selectKey s).fired = s.fired := rfl

/-! ### driveKey -/

@[simp] theorem driveKey_cfg : (driveKey s).cfg = s.cfg := rfl

@[simp] theorem driveKey_ctl : (driveKey s).ctl = s.ctl := rfl

@[simp] theorem driveKey_smp : (driveKey s).smp = s.smp := rfl

@[simp] theorem driveKey_alm : (driveKey s).alm = s.alm := rfl

@[simp] theorem driveKey_kb : (driveKey s).kb = s.kb := rfl

@[simp] theorem driveKey_ac : (driveKey s).ac = s.ac := rfl

@[simp] theorem driveKey_itp : (driveKey s).itp = s.itp := rfl

@[simp] theorem driveKey_inputs : (driveKey s).inputs = s.inputs := rfl

@[simp] theorem driveKey_result : (driveKey s).result = s.result := rfl

@[simp] theorem driveKey_fired : (driveKey s).fired = s.fired := rfl

/-! ### encOdd -/

@[simp] theorem encOdd_cfg : (encOdd s).cfg = s.cfg := by
  unfold encOdd; split <;> rfl

@[simp] theorem encOdd_ctl : (encOdd s).ctl = s.ctl := by
  unfold encOdd; split <;> rfl

@[simp] theorem encOdd_smp : (encOdd s).smp = s.smp := by
  unfold encOdd; split <;> rfl

@[simp] theorem encOdd_alm : (encOdd s).alm = s.alm := by
  unfold encOdd; split <;> rfl

@[simp] theorem encOdd_kb : (encOdd s).kb = s.kb := by
  unfold encOdd; split <;> rfl

@[simp] theorem encOdd_ac : (encOdd s).ac = s.ac := by
  unfold encOdd; split <;> rfl

@[simp] theorem encOdd_itp : (encOdd s).itp = s.itp := by
  unfold encOdd; split <;> rfl

@[simp] theorem encOdd_inputs : (encOdd s).inputs = s.inputs := by
  unfold encOdd; split <;> rfl

@[simp] theorem encOdd_result : (encOdd s).result = s.result := by
  unfold encOdd; split <;> rfl

@[simp] theorem encOdd_fired : (encOdd s).fired = s.fired := by
  unfold encOdd; split <;> rfl

/-! ### endPress -/

@[simp] theorem endPress_cfg : (endPress s).cfg = s.cfg := rfl

@[simp] theorem endPress_ctl : (endPress s).ctl = s.ctl := rfl

@[simp] theorem endPress_smp : (endPress s).smp = s.smp := rfl

@[simp] theorem endPress_alm : (endPress s).alm = s.alm := rfl

@[simp] theorem endPress_kb : (endPress s).kb = s.kb := rfl

@[simp] theorem endPress_ac : (endPress s).ac = s.ac := rfl

@[simp] theorem endPress_itp : (endPress s).itp = s.itp := rfl

@[simp] theorem endPress_inputs : (endPress s).inputs = s.inputs := rfl

@[simp] theorem endPress_result : (endPress s).result = s.result := rfl

@[simp] theorem endPress_fired : (endPress s).fired = s.fired := rfl

/-! ### shutWindow -/

@[simp] theorem shutWindow_cfg : (shutWindow s).cfg = s.cfg := rfl

@[simp] theorem shutWindow_ctl : (shutWindow s).ctl = s.ctl := rfl

@[simp] theorem shutWindow_smp : (shutWindow s).smp = s.smp := rfl

@[simp] theorem shutWindow_alm : (shutWindow s).alm = s.alm := rfl

@[simp] theorem shutWindow_kb : (shutWindow s).kb = s.kb := rfl

@[simp] theorem shutWindow_ac : (shutWindow s).ac = s.ac := rfl

@[simp] theorem shutWindow_itp : (shutWindow s).itp = s.itp := rfl

@[simp] theorem shutWindow_inputs : (shutWindow s).inputs = s.inputs := rfl

@[simp] theorem shutWindow_result : (shutWindow s).result = s.result := rfl

@[simp] theorem shutWindow_fired : (shutWindow s).fired = s.fired := rfl

/-! ### releaseKey -/

@[simp] theorem releaseKey_cfg : (releaseKey s).cfg = s.cfg := rfl

@[simp] theorem releaseKey_ctl : (releaseKey s).ctl = s.ctl := rfl

@[simp] theorem releaseKey_smp : (releaseKey s).smp = s.smp := rfl

@[simp] theorem releaseKey_alm : (releaseKey s).alm = s.alm := rfl

@[simp] theorem releaseKey_kb : (releaseKey s).kb = s.kb := rfl

@[simp] theorem releaseKey_ac : (releaseKey s).ac = s.ac := rfl

@[simp] theorem releaseKey_itp : (releaseKey s).itp = s.itp := rfl

@[simp] theorem releaseKey_inputs : (releaseKey s).inputs = s.inputs := rfl

@[simp] theorem releaseKey_result : (releaseKey s).result = s.result := rfl

@[simp] theorem releaseKey_fired : (releaseKey s).fired = s.fired := rfl

/-! ### retireKey -/

@[simp] theorem retireKey_cfg : (retireKey s).cfg = s.cfg := by
  unfold retireKey; split <;> [simp; (split <;> simp)]

@[simp] theorem retireKey_ctl : (retireKey s).ctl = s.ctl := by
  unfold retireKey; split <;> [simp; (split <;> simp)]

@[simp] theorem retireKey_smp : (retireKey s).smp = s.smp := by
  unfold retireKey; split <;> [simp; (split <;> simp)]

@[simp] theorem retireKey_ac : (retireKey s).ac = s.ac := by
  unfold retireKey; split <;> [simp; (split <;> simp)]

@[simp] theorem retireKey_itp : (retireKey s).itp = s.itp := by
  unfold retireKey; split <;> [simp; (split <;> simp)]

@[simp] theorem retireKey_inputs : (retireKey s).inputs = s.inputs := by
  unfold retireKey; split <;> [simp; (split <;> simp)]

@[simp] theorem retireKey_result : (retireKey s).result = s.result := by
  unfold retireKey; split <;> [simp; (split <;> simp)]

/-! ### closeWindow -/

@[simp] theorem closeWindow_cfg : (closeWindow s).cfg = s.cfg := by
  simp [closeWindow]

@[simp] theorem closeWindow_ctl : (closeWindow s).ctl = s.ctl := by
  simp [closeWindow]

@[simp] theorem closeWindow_smp : (closeWindow s).smp = s.smp := by
  simp [closeWindow]

@[simp] theorem closeWindow_ac : (closeWindow s).ac = s.ac := by
  simp [closeWindow]

@[simp] theorem closeWindow_itp : (closeWindow s).itp = s.itp := by
  simp [closeWindow]

@[simp] theorem closeWindow_inputs : (closeWindow s).inputs = s.inputs := by
  simp [closeWindow]

@[simp] theorem closeWindow_result : (closeWindow s).result = s.result := by
  simp [closeWindow]

/-! ### encEven -/

@[simp] theorem encEven_cfg : (encEven s).cfg = s.cfg := by
  unfold encEven; split <;> simp

@[simp] theorem encEven_ctl : (encEven s).ctl = s.ctl := by
  unfold encEven; split <;> simp

@[simp] theorem encEven_smp : (encEven s).smp = s.smp := by
  unfold encEven; split <;> simp

@[simp] theorem encEven_ac : (encEven s).ac = s.ac := by
  unfold encEven; split <;> simp

@[simp] theorem encEven_itp : (encEven s).itp = s.itp := by
  unfold encEven; split <;> simp

@[simp] theorem encEven_inputs : (encEven s).inputs = s.inputs := by
  unfold encEven; split <;> simp

@[simp] theorem encEven_result : (encEven s).result = s.result := by
  unfold encEven; split <;> simp

/-! ### alarmAckCheck -/

@[simp] theorem alarmAckCheck_cfg : (alarmAckCheck s).cfg = s.cfg := by
  unfold alarmAckCheck; split <;> rfl

@[simp] theorem alarmAckCheck_ctl : (alarmAckCheck s).ctl = s.ctl := by
  unfold alarmAckCheck; split <;> rfl

@[simp] theorem alarmAckCheck_smp : (alarmAckCheck s).smp = s.smp := by
  unfold alarmAckCheck; split <;> rfl

@[simp] theorem alarmAckCheck_enc : (alarmAckCheck s).enc = s.enc := by
  unfold alarmAckCheck; split <;> rfl

@[simp] theorem alarmAckCheck_kb : (alarmAckCheck s).kb = s.kb := by
  unfold alarmAckCheck; split <;> rfl

@[simp] theorem alarmAckCheck_ac : (alarmAckCheck s).ac = s.ac := by
  unfold alarmAckCheck; split <;> rfl

@[simp] theorem alarmAckCheck_itp : (alarmAckCheck s).itp = s.itp := by
  unfold alarmAckCheck; split <;> rfl

@[simp] theorem alarmAckCheck_inputs : (alarmAckCheck s).inputs = s.inputs := by
  unfold alarmAckCheck; split <;> rfl

@[simp] theorem alarmAckCheck_result : (alarmAckCheck s).result = s.result := by
  unfold alarmAckCheck; split <;> rfl

@[simp] theorem alarmAckCheck_fired : (alarmAckCheck s).fired = s.fired := by
  unfold alarmAckCheck; split <;> rfl

/-! ### stampEdge -/

@[simp] theorem stampEdge_cfg : (stampEdge s).cfg = s.cfg := rfl

@[simp] theorem stampEdge_ctl : (stampEdge s).ctl = s.ctl := rfl

@[simp] theorem stampEdge_enc : (stampEdge s).enc = s.enc := rfl

@[simp] theorem stampEdge_alm : (stampEdge s).alm = s.alm := rfl

@[simp] theorem stampEdge_kb : (stampEdge s).kb = s.kb := rfl

@[simp] theorem stampEdge_ac : (stampEdge s).ac = s.ac := rfl

@[simp] theorem stampEdge_itp : (stampEdge s).itp = s.itp := rfl

@[simp] theorem stampEdge_inputs : (stampEdge s).inputs = s.inputs := rfl

@[simp] theorem stampEdge_result : (stampEdge s).result = s.result := rfl

@[simp] theorem stampEdge_fired : (stampEdge s).fired = s.fired := rfl

/-! ### samplePanel -/

@[simp] theorem samplePanel_cfg (data : Bool) : (samplePanel data s).cfg = s.cfg := rfl

@[simp] theorem samplePanel_ctl (data : Bool) : (samplePanel data s).ctl = s.ctl := rfl

@[simp] theorem samplePanel_enc (data : Bool) : (samplePanel data s).enc = s.enc := rfl

@[simp] theorem samplePanel_alm (data : Bool) : (samplePanel data s).alm = s.alm := rfl

@[simp] theorem samplePanel_kb (data : Bool) : (samplePanel data s).kb = s.kb := rfl

@[simp] theorem samplePanel_ac (data : Bool) : (samplePanel data s).ac = s.ac := rfl

@[simp] theorem samplePanel_itp (data : Bool) : (samplePanel data s).itp = s.itp := rfl

@[simp] theorem samplePanel_inputs (data : Bool) : (samplePanel data s).inputs = s.inputs := rfl

@[simp] theorem samplePanel_result (data : Bool) : (samplePanel data s).result = s.result := rfl

@[simp] theorem samplePanel_fired (data : Bool) : (samplePanel data s).fired = s.fired := rfl

/-! ### sampleModule -/

@[simp] theorem sampleModule_cfg (data : Bool) : (sampleModule data s).cfg = s.cfg := rfl

@[simp] theorem sampleModule_ctl (data : Bool) : (sampleModule data s).ctl = s.ctl := rfl

@[simp] theorem sampleModule_enc (data : Bool) : (sampleModule data s).enc = s.enc := rfl

@[simp] theorem sampleModule_alm (data : Bool) : (sampleModule data s).alm = s.alm := rfl

@[simp] theorem sampleModule_kb (data : Bool) : (sampleModule data s).kb = s.kb := rfl

@[simp] theorem sampleModule_ac (data : Bool) : (sampleModule data s).ac = s.ac := rfl

@[simp] theorem sampleModule_itp (data : Bool) : (sampleModule data s).itp = s.itp := rfl

@[simp] theorem sampleModule_inputs (data : Bool) : (sampleModule data s).inputs = s.inputs := rfl

@[simp] theorem sampleModule_result (data : Bool) : (sampleModule data s).result = s.result := rfl

@[simp] theorem sampleModule_fired (data : Bool) : (sampleModule data s).fired = s.fired := rfl

/-! ### nextCycle -/

@[simp] theorem nextCycle_cfg : (nextCycle s).cfg = s.cfg := rfl

@[simp] theorem nextCycle_ctl : (nextCycle s).ctl = s.ctl := rfl

@[simp] theorem nextCycle_enc : (nextCycle s).enc = s.enc := rfl

@[simp] theorem nextCycle_alm : (nextCycle s).alm = s.alm := rfl

@[simp] theorem nextCycle_kb : (nextCycle s).kb = s.kb := rfl

@[simp] theorem nextCycle_ac : (nextCycle s).ac = s.ac := rfl

@[simp] theorem nextCycle_itp : (nextCycle s).itp = s.itp := rfl

@[simp] theorem nextCycle_inputs : (nextCycle s).inputs = s.inputs := rfl

@[simp] theorem nextCycle_result : (nextCycle s).result = s.result := rfl

@[simp] theorem nextCycle_fired : (nextCycle s).fired = s.fired := rfl

/-! ### fireFrameComplete -/

@[simp] theorem fireFrameComplete_cfg : (fireFrameComplete s).cfg = s.cfg := by
  simp [fireFrameComplete, State.log]

@[simp] theorem fireFrameComplete_ctl : (fireFrameComplete s).ctl = s.ctl := by
  simp [fireFrameComplete, State.log]

@[simp] theorem fireFrameComplete_enc : (fireFrameComplete s).enc = s.enc := by
  simp [fireFrameComplete, State.log]

@[simp] theorem fireFrameComplete_kb : (fireFrameComplete s).kb = s.kb := by
  simp [fireFrameComplete, State.log]

@[simp] theorem fireFrameComplete_ac : (fireFrameComplete s).ac = s.ac := by
  simp [fireFrameComplete, State.log]

@[simp] theorem fireFrameComplete_itp : (fireFrameComplete s).itp = s.itp := by
  simp [fireFrameComplete, State.log]

@[simp] theorem fireFrameComplete_inputs : (fireFrameComplete s).inputs = s.inputs := by
  simp [fireFrameComplete, State.log]

@[simp] theorem fireFrameComplete_result : (fireFrameComplete s).result = s.result := by
  simp [fireFrameComplete, State.log]

/-! ### completeFrame -/

@[simp] theorem completeFrame_cfg : (completeFrame s).cfg = s.cfg := by
  unfold completeFrame; split <;> simp

@[simp] theorem completeFrame_ctl : (completeFrame s).ctl = s.ctl := by
  unfold completeFrame; split <;> simp

@[simp] theorem completeFrame_enc : (completeFrame s).enc = s.enc := by
  unfold completeFrame; split <;> simp

@[simp] theorem completeFrame_kb : (completeFrame s).kb = s.kb := by
  unfold completeFrame; split <;> simp

@[simp] theorem completeFrame_ac : (completeFrame s).ac = s.ac := by
  unfold completeFrame; split <;> simp

@[simp] theorem completeFrame_itp : (completeFrame s).itp = s.itp := by
  unfold completeFrame; split <;> simp

@[simp] theorem completeFrame_inputs : (completeFrame s).inputs = s.inputs := by
  unfold completeFrame; split <;> simp

@[simp] theorem completeFrame_result : (completeFrame s).result = s.result := by
  unfold completeFrame; split <;> simp

/-! ### fireSilenceTimeout -/

@[simp] theorem fireSilenceTimeout_cfg : (fireSilenceTimeout s).cfg = s.cfg := rfl

@[simp] theorem fireSilenceTimeout_ctl : (fireSilenceTimeout s).ctl = s.ctl := rfl

@[simp] theorem fireSilenceTimeout_alm : (fireSilenceTimeout s).alm = s.alm := rfl

@[simp] theorem fireSilenceTimeout_kb : (fireSilenceTimeout s).kb = s.kb := rfl

@[simp] theorem fireSilenceTimeout_ac : (fireSilenceTimeout s).ac = s.ac := rfl

@[simp] theorem fireSilenceTimeout_itp : (fireSilenceTimeout s).itp = s.itp := rfl

@[simp] theorem fireSilenceTimeout_inputs : (fireSilenceTimeout s).inputs = s.inputs := rfl

@[simp] theorem fireSilenceTimeout_result : (fireSilenceTimeout s).result = s.result := rfl

/-! ### clockEdge -/

@[simp] theorem clockEdge_cfg (data : Bool) : (clockEdge data s).cfg = s.cfg := by
  unfold clockEdge; split <;> [(dsimp only; split <;> simp); rfl]

@[simp] theorem clockEdge_ctl (data : Bool) : (clockEdge data s).ctl = s.ctl := by
  unfold clockEdge; split <;> [(dsimp only; split <;> simp); rfl]

@[simp] theorem clockEdge_ac (data : Bool) : (clockEdge data s).ac = s.ac := by
  unfold clockEdge; split <;> [(dsimp only; split <;> simp); rfl]

@[simp] theorem clockEdge_itp (data : Bool) : (clockEdge data s).itp = s.itp := by
  unfold clockEdge; split <;> [(dsimp only; split <;> simp); rfl]

@[simp] theorem clockEdge_inputs (data : Bool) : (clockEdge data s).inputs = s.inputs := by
  unfold clockEdge; split <;> [(dsimp only; split <;> simp); rfl]

@[simp] theorem clockEdge_result (data : Bool) : (clockEdge data s).result = s.result := by
  unfold clockEdge; split <;> [(dsimp only; split <;> simp); rfl]

/-! ### fireDue -/

@[simp] theorem fireDue_cfg (a b : Option Nat) (r : Nat) : (fireDue a b r s).cfg = s.cfg := by
  unfold fireDue; dsimp only; split <;> split <;> simp

@[simp] theorem fireDue_ctl (a b : Option Nat) (r : Nat) : (fireDue a b r s).ctl = s.ctl := by
  unfold fireDue; dsimp only; split <;> split <;> simp

@[simp] theorem fireDue_alm (a b : Option Nat) (r : Nat) : (fireDue a b r s).alm = s.alm := by
  unfold fireDue; dsimp only; split <;> split <;> simp

@[simp] theorem fireDue_kb (a b : Option Nat) (r : Nat) : (fireDue a b r s).kb = s.kb := by
  unfold fireDue; dsimp only; split <;> split <;> simp

@[simp] theorem fireDue_itp (a b : Option Nat) (r : Nat) : (fireDue a b r s).itp = s.itp := by
  unfold fireDue; dsimp only; split <;> split <;> simp

@[simp] theorem fireDue_inputs (a b : Option Nat) (r : Nat) : (fireDue a b r s).inputs = s.inputs := by
  unfold fireDue; dsimp only; split <;> split <;> simp

@[simp] theorem fireDue_result (a b : Option Nat) (r : Nat) : (fireDue a b r s).result = s.result := by
  unfold fireDue; dsimp only; split <;> split <;> simp

/-! ### consumeFrame -/

@[simp] theorem consumeFrame_cfg : (consumeFrame s).cfg = s.cfg := rfl

@[simp] theorem consumeFrame_ctl : (consumeFrame s).ctl = s.ctl := rfl

@[simp] theorem consumeFrame_enc : (consumeFrame s).enc = s.enc := rfl

@[simp] theorem consumeFrame_alm : (consumeFrame s).alm = s.alm := rfl

@[simp] theorem consumeFrame_kb : (consumeFrame s).kb = s.kb := rfl

@[simp] theorem consumeFrame_ac : (consumeFrame s).ac = s.ac := rfl

@[simp] theorem consumeFrame_inputs : (consumeFrame s).inputs = s.inputs := rfl

@[simp] theorem consumeFrame_result : (consumeFrame s).result = s.result := rfl

@[simp] theorem consumeFrame_fired : (consumeFrame s).fired = s.fired := rfl

/-! ### clearKey -/

@[simp] theorem clearKey_cfg : (clearKey s).cfg = s.cfg := rfl

@[simp] theorem clearKey_ctl : (clearKey s).ctl = s.ctl := rfl

@[simp] theorem clearKey_smp : (clearKey s).smp = s.smp := rfl

@[simp] theorem clearKey_enc : (clearKey s).enc = s.enc := rfl

@[simp] theorem clearKey_alm : (clearKey s).alm = s.alm := rfl

@[simp] theorem clearKey_kb : (clearKey s).kb = s.kb := rfl

@[simp] theorem clearKey_ac : (clearKey s).ac = s.ac := rfl

@[simp] theorem clearKey_inputs : (clearKey s).inputs = s.inputs := rfl

@[simp] theorem clearKey_result : (clearKey s).result = s.result := rfl

@[simp] theorem clearKey_fired : (clearKey s).fired = s.fired := rfl

/-! ### startBlock -/

@[simp] theorem startBlock_cfg (trace : Bool) : (startBlock trace s).cfg = s.cfg := by
  unfold startBlock; split <;> rfl

@[simp] theorem startBlock_enc (trace : Bool) : (startBlock trace s).enc = s.enc := by
  unfold startBlock; split <;> rfl

@[simp] theorem startBlock_alm (trace : Bool) : (startBlock trace s).alm = s.alm := by
  unfold startBlock; split <;> rfl

@[simp] theorem startBlock_kb (trace : Bool) : (startBlock trace s).kb = s.kb := by
  unfold startBlock; split <;> rfl

@[simp] theorem startBlock_ac (trace : Bool) : (startBlock trace s).ac = s.ac := by
  unfold startBlock; split <;> rfl

@[simp] theorem startBlock_itp (trace : Bool) : (startBlock trace s).itp = s.itp := by
  unfold startBlock; split <;> rfl

@[simp] theorem startBlock_inputs (trace : Bool) : (startBlock trace s).inputs = s.inputs := by
  unfold startBlock; split <;> rfl

@[simp] theorem startBlock_result (trace : Bool) : (startBlock trace s).result = s.result := by
  unfold startBlock; split <;> rfl

@[simp] theorem startBlock_fired (trace : Bool) : (startBlock trace s).fired = s.fired := by
  unfold startBlock; split <;> rfl

/-! ### advanceLoop, by induction over its turns -/

theorem advanceLoop_cfg : ∀ (fuel rem : Nat) (s : State), (advanceLoop fuel rem s).cfg = s.cfg
  | 0, _, _ => rfl
  | fuel + 1, rem, s => by
    rw [advanceLoop]
    split
    · rfl
    · split
      · rfl
      · rw [advanceLoop_cfg fuel]; simp

@[simp] theorem advanceTime_cfg (dt : BitVec 24) : (advanceTime dt s).cfg = s.cfg := advanceLoop_cfg _ _ _

theorem advanceLoop_alm : ∀ (fuel rem : Nat) (s : State), (advanceLoop fuel rem s).alm = s.alm
  | 0, _, _ => rfl
  | fuel + 1, rem, s => by
    rw [advanceLoop]
    split
    · rfl
    · split
      · rfl
      · rw [advanceLoop_alm fuel]; simp

@[simp] theorem advanceTime_alm (dt : BitVec 24) : (advanceTime dt s).alm = s.alm := advanceLoop_alm _ _ _

theorem advanceLoop_kb : ∀ (fuel rem : Nat) (s : State), (advanceLoop fuel rem s).kb = s.kb
  | 0, _, _ => rfl
  | fuel + 1, rem, s => by
    rw [advanceLoop]
    split
    · rfl
    · split
      · rfl
      · rw [advanceLoop_kb fuel]; simp

@[simp] theorem advanceTime_kb (dt : BitVec 24) : (advanceTime dt s).kb = s.kb := advanceLoop_kb _ _ _

theorem advanceLoop_itp : ∀ (fuel rem : Nat) (s : State), (advanceLoop fuel rem s).itp = s.itp
  | 0, _, _ => rfl
  | fuel + 1, rem, s => by
    rw [advanceLoop]
    split
    · rfl
    · split
      · rfl
      · rw [advanceLoop_itp fuel]; simp

@[simp] theorem advanceTime_itp (dt : BitVec 24) : (advanceTime dt s).itp = s.itp := advanceLoop_itp _ _ _

theorem advanceLoop_inputs : ∀ (fuel rem : Nat) (s : State), (advanceLoop fuel rem s).inputs = s.inputs
  | 0, _, _ => rfl
  | fuel + 1, rem, s => by
    rw [advanceLoop]
    split
    · rfl
    · split
      · rfl
      · rw [advanceLoop_inputs fuel]; simp

@[simp] theorem advanceTime_inputs (dt : BitVec 24) : (advanceTime dt s).inputs = s.inputs := advanceLoop_inputs _ _ _

theorem advanceLoop_result : ∀ (fuel rem : Nat) (s : State), (advanceLoop fuel rem s).result = s.result
  | 0, _, _ => rfl
  | fuel + 1, rem, s => by
    rw [advanceLoop]
    split
    · rfl
    · split
      · rfl
      · rw [advanceLoop_result fuel]; simp

@[simp] theorem advanceTime_result (dt : BitVec 24) : (advanceTime dt s).result = s.result := advanceLoop_result _ _ _

end Sys2Proof.Machine
end

