-- ==== Sys2Proof/Laws/Advance.lean ====
section
/-! SUPPORT. The loop of `ADVANCE` (40_bus_sampler R140): after a turn both deadlines lie ahead, so every turn but the first
takes time, and the fuel that `advanceTime` gives the loop is enough (log 7). -/

namespace Sys2Proof.Machine

/-! ### What a valid configuration gives -/

/-- The bounds of 00_scope R7 that the deadlines need. -/
theorem Config.valid_bounds {c : Config} (h : c.valid = true) :
    c.silenceWindowUs < 2 ^ 31 ∧ 1 ≤ c.timeUnitUs ∧ 255 * c.timeUnitUs + c.beepGapUs < 2 ^ 31
      ∧ 1 ≤ c.beepOnUs ∧ 128 * (c.beepOnUs + c.beepGapUs) < 2 ^ 31 := by
  simp only [Config.valid, Bool.and_eq_true, decide_eq_true_eq] at h
  omega

/-! ### Lengths of acoustic requests -/

/-- The length of a request that is not of length zero (42_acoustic R196). -/
theorem Acoustic.length_pos {c : Config} {a : Acoustic} (hc : c.valid = true) (hf : a.formed = true)
    (ht : a.acType ≠ .none) : 0 < a.length c := by
  obtain ⟨-, hu, -, hon, -⟩ := Config.valid_bounds hc
  have hn : ∀ b : Byte, b ≠ 0#8 → 0 < b.toNat := fun b hb =>
    Nat.pos_of_ne_zero fun h => hb (BitVec.eq_of_toNat_eq h)
  have hi : ∀ b : BitVec 4, b ≠ 0#4 → 0 < b.toNat := fun b hb =>
    Nat.pos_of_ne_zero fun h => hb (BitVec.eq_of_toNat_eq h)
  unfold Acoustic.formed at hf
  unfold Acoustic.length
  cases h : a.acType with
  | none => exact absurd h ht
  | beep =>
    simp only [h, Bool.and_eq_true, decide_eq_true_eq] at hf ⊢
    exact Nat.mul_pos (hn _ hf.1) (by unfold Config.beepPeriod; omega)
  | buzzer =>
    simp only [h, Bool.and_eq_true, decide_eq_true_eq] at hf ⊢
    have := Nat.mul_pos (hn _ hf.1) hu
    omega
  | tone =>
    simp only [h, Bool.and_eq_true, decide_eq_true_eq] at hf ⊢
    exact Nat.mul_pos (hi _ hf.1.2) hu

/-- Every length fits the time counter (00_scope R7). -/
theorem Acoustic.length_lt {c : Config} (a : Acoustic) (hc : c.valid = true) : a.length c < 2 ^ 32 := by
  obtain ⟨-, -, hg, -, hp⟩ := Config.valid_bounds hc
  have hn : a.n.toNat ≤ 255 := by have := a.n.isLt; omega
  have hi : a.interval.toNat ≤ 15 := by have := a.interval.isLt; omega
  have h1 : a.n.toNat * (c.beepOnUs + c.beepGapUs) ≤ 255 * (c.beepOnUs + c.beepGapUs) := Nat.mul_le_mul_right _ hn
  have h2 : a.n.toNat * c.timeUnitUs ≤ 255 * c.timeUnitUs := Nat.mul_le_mul_right _ hn
  have h3 : a.interval.toNat * c.timeUnitUs ≤ 15 * c.timeUnitUs := Nat.mul_le_mul_right _ hi
  unfold Acoustic.length
  cases a.acType <;> simp only [Config.beepPeriod] <;> omega

/-- A boundary keeps the registers free of requests of length zero (42_acoustic R198). -/
theorem Acoustic.formed_boundary {a : Acoustic} (now : Time) (hf : a.formed = true) :
    (a.boundary now).formed = true := by
  unfold Acoustic.boundary
  by_cases hq : a.qValid = true
  · rw [if_pos hq]
    unfold Acoustic.formed at hf ⊢
    cases h : a.acType <;> simp_all
  · rw [if_neg hq]
    by_cases ht : a.acType = .tone
    · rw [if_pos ht]; exact hf
    · rw [if_neg ht]; rfl

/-! ### One turn of the loop -/

/-- Both deadlines, where there is one, lie ahead. -/
def State.Later (s : State) : Prop :=
  (∀ d, s.silenceDue = some d → 0 < d) ∧ ∀ d, s.acousticDue = some d → 0 < d

/-- The earlier of two deadlines is one of them and not after either. -/
theorem earliest_eq_some {a b : Option Nat} {r : Nat} (h : earliest a b = some r) :
    (a = some r ∨ b = some r) ∧ (∀ d, a = some d → r ≤ d) ∧ ∀ d, b = some d → r ≤ d := by
  cases a with
  | none => simp_all [earliest]
  | some x =>
    cases b with
    | none => simp_all [earliest]
    | some y =>
      simp only [earliest, Option.some.injEq] at h
      simp only [Option.some.injEq]
      refine ⟨?_, ?_, ?_⟩
      · omega
      · intro d hd; omega
      · intro d hd; omega

/-- Only a boundary of the turn writes the acoustic registers (42_acoustic R198). -/
theorem fireDue_ac (a b : Option Nat) (r : Nat) (s : State) :
    (fireDue a b r s).ac = if b = some r then s.ac.boundary s.ctl.now else s.ac := by
  unfold fireDue
  by_cases ha : a = some r <;> by_cases hb : b = some r <;> simp [ha, hb, fireAcousticBoundary]

/-- Only a silence timeout of the turn writes the sampler (40_bus_sampler R138). -/
theorem fireDue_smp (a b : Option Nat) (r : Nat) (s : State) :
    (fireDue a b r s).smp = if a = some r then s.smp.realign else s.smp := by
  unfold fireDue
  by_cases ha : a = some r <;> by_cases hb : b = some r <;> simp [ha, hb, fireSilenceTimeout, shutWindow, releaseKey]

/-- A deadline that lies ahead of a passage of time gets that much nearer. -/
theorem State.elapsed_of_due {s : State} {t : Time} {length d r : Nat} (hl : length < 2 ^ 32)
    (hd : length - s.elapsed t = d) (hr : r < d) :
    (s.ctl.now + BitVec.ofNat 32 r - t).toNat = s.elapsed t + r :=
  State.elapsed_tick s r t (by omega)

/-- After a turn at the instant `r` the silence deadline has fired or lies ahead (40_bus_sampler R140). -/
theorem silenceDue_after_turn {s : State} {a : Option Nat} {r : Nat} (b : Option Nat) (hv : s.cfg.valid = true)
    (ha : s.silenceDue = a) (hle : ∀ d, a = some d → r ≤ d) :
    ∀ d, (fireDue a b r (s.tick r)).silenceDue = some d → 0 < d := by
  intro d hd
  have hw := (Config.valid_bounds hv).1
  simp only [State.silenceDue, State.elapsed, fireDue_smp, fireDue_ctl, fireDue_cfg, State.tick_running, State.tick_smp,
    State.tick_now, State.tick_cfg] at hd
  by_cases hsr : a = some r
  · simp [hsr, Sampler.realign] at hd
  · rw [if_neg hsr] at hd
    by_cases harm : s.ctl.running = true ∧ s.smp.silArmed = true
    · rw [if_pos harm] at hd
      rw [State.silenceDue, if_pos harm] at ha
      have hr := hle _ ha.symm
      have hne : r ≠ s.cfg.silenceWindowUs + 1 - s.elapsed s.smp.lastEdge := fun hEq => hsr (hEq ▸ ha.symm)
      have hel := State.elapsed_of_due (s := s) (t := s.smp.lastEdge) (r := r)
        (length := s.cfg.silenceWindowUs + 1) (by omega) rfl (by omega)
      rw [hel, Option.some.injEq] at hd
      omega
    · rw [if_neg harm] at hd; cases hd

/-- A boundary that leaves a request in flight starts it now (42_acoustic R198). -/
theorem Acoustic.boundary_t0 {a : Acoustic} {now : Time} (ht : (a.boundary now).acType ≠ .none) :
    (a.boundary now).t0 = now := by
  unfold Acoustic.boundary at ht ⊢
  split
  · rfl
  · split
    · rfl
    · simp_all

/-- After a turn at the instant `r` the acoustic deadline has fired and its successor, or itself, lies ahead
(40_bus_sampler R140). -/
theorem acousticDue_after_turn {s : State} {b : Option Nat} {r : Nat} (a : Option Nat) (hv : s.cfg.valid = true)
    (hf : s.ac.formed = true) (hb : s.acousticDue = b) (hle : ∀ d, b = some d → r ≤ d) :
    ∀ d, (fireDue a b r (s.tick r)).acousticDue = some d → 0 < d := by
  intro d hd
  simp only [State.acousticDue, State.elapsed, fireDue_ac, fireDue_ctl, fireDue_cfg, State.tick_ac, State.tick_now,
    State.tick_cfg] at hd
  by_cases har : b = some r
  · rw [if_pos har] at hd
    by_cases ht : (s.ac.boundary (s.ctl.now + BitVec.ofNat 32 r)).acType = .none
    · rw [if_pos ht] at hd; cases hd
    · rw [if_neg ht, Acoustic.boundary_t0 ht, BitVec.sub_self] at hd
      have hpos := Acoustic.length_pos hv (Acoustic.formed_boundary (s.ctl.now + BitVec.ofNat 32 r) hf) ht
      simp only [BitVec.toNat_ofNat, Nat.zero_mod, Nat.sub_zero, Option.some.injEq] at hd
      omega
  · rw [if_neg har] at hd
    by_cases ht : s.ac.acType = .none
    · rw [if_pos ht] at hd; cases hd
    · rw [if_neg ht] at hd
      rw [State.acousticDue, if_neg ht] at hb
      have hr := hle _ hb.symm
      have hne : r ≠ s.ac.length s.cfg - s.elapsed s.ac.t0 := fun hEq => har (hEq ▸ hb.symm)
      have hel := State.elapsed_of_due (s := s) (t := s.ac.t0) (r := r)
        (length := s.ac.length s.cfg) (Acoustic.length_lt _ hv) rfl (by omega)
      rw [hel, Option.some.injEq] at hd
      omega

/-- After a turn of the loop both deadlines lie ahead (40_bus_sampler R140). -/
theorem fireDue_later {s : State} {r : Nat} (hv : s.cfg.valid = true) (hf : s.ac.formed = true)
    (h : earliest s.silenceDue s.acousticDue = some r) :
    (fireDue s.silenceDue s.acousticDue r (s.tick r)).Later :=
  ⟨silenceDue_after_turn _ hv rfl (earliest_eq_some h).2.1, acousticDue_after_turn _ hv hf rfl (earliest_eq_some h).2.2⟩

/-- A turn of the loop keeps the acoustic registers free of requests of length zero. -/
theorem fireDue_formed {s : State} (a b : Option Nat) (r : Nat) (hf : s.ac.formed = true) :
    (fireDue a b r s).ac.formed = true := by
  rw [fireDue_ac]
  split
  · exact Acoustic.formed_boundary _ hf
  · exact hf

/-! ### The fuel -/

/-- With both deadlines ahead, every turn takes time: more fuel than microseconds changes nothing. -/
theorem advanceLoop_fuel_of_later : ∀ (fuel rem : Nat) (s : State), s.cfg.valid = true → s.ac.formed = true → s.Later →
    rem < fuel → advanceLoop (fuel + 1) rem s = advanceLoop fuel rem s
  | 0, _, _, _, _, _, hr => absurd hr (Nat.not_lt_zero _)
  | fuel + 1, rem, s, hv, hf, hl, hr => by
    rw [advanceLoop, advanceLoop]
    cases h : earliest s.silenceDue s.acousticDue with
    | none => rfl
    | some r =>
      dsimp only
      by_cases hlt : rem < r
      · rw [if_pos hlt, if_pos hlt]
      · rw [if_neg hlt, if_neg hlt]
        have hpos : 0 < r := (earliest_eq_some h).1.elim (hl.1 r) (hl.2 r)
        exact advanceLoop_fuel_of_later fuel (rem - r) _ (by simpa using hv) (fireDue_formed _ _ _ hf)
          (fireDue_later hv hf h) (by omega)

/-- The first turn may take no time; every later one does. -/
theorem advanceLoop_fuel (fuel rem : Nat) (s : State) (hv : s.cfg.valid = true) (hf : s.ac.formed = true)
    (hr : rem + 1 < fuel) : advanceLoop (fuel + 1) rem s = advanceLoop fuel rem s := by
  obtain ⟨n, rfl⟩ : ∃ n, fuel = n + 1 := ⟨fuel - 1, by omega⟩
  rw [advanceLoop, advanceLoop]
  cases h : earliest s.silenceDue s.acousticDue with
  | none => rfl
  | some r =>
    dsimp only
    by_cases hlt : rem < r
    · rw [if_pos hlt, if_pos hlt]
    · rw [if_neg hlt, if_neg hlt]
      exact advanceLoop_fuel_of_later n (rem - r) _ (by simpa using hv) (fireDue_formed _ _ _ hf)
        (fireDue_later hv hf h) (by omega)

/-- The loop of `ADVANCE` ends by itself: any fuel beyond the one given makes no difference (log 7). -/
theorem advanceTime_turns (dt : BitVec 24) (s : State) (hv : s.cfg.valid = true) (hf : s.ac.formed = true) :
    ∀ more : Nat, advanceLoop (dt.toNat + 2 + more) dt.toNat s = advanceTime dt s := by
  intro more
  induction more with
  | zero => rfl
  | succ n ih => exact (advanceLoop_fuel (dt.toNat + 2 + n) _ s hv hf (by omega)).trans ih

end Sys2Proof.Machine
end

