-- ==== Sys2Proof/Laws/Bits.lean ====
section
/-! SUPPORT. Bit-field lemmas: the fields of a word built of fields, the shift of a sample into a byte, the parity of the
cycle counter. -/

namespace Sys2Proof

/-- Bit `k` of a field of a word. -/
theorem opField_getLsbD (w : Word) (k : Nat) : (opField w).getLsbD k = (decide (k < 8) && w.getLsbD (24 + k)) := by
  simp [opField, BitVec.getLsbD_extractLsb']

theorem aField_getLsbD (w : Word) (k : Nat) : (aField w).getLsbD k = (decide (k < 8) && w.getLsbD (16 + k)) := by
  simp [aField, BitVec.getLsbD_extractLsb']

theorem bField_getLsbD (w : Word) (k : Nat) : (bField w).getLsbD k = (decide (k < 8) && w.getLsbD (8 + k)) := by
  simp [bField, BitVec.getLsbD_extractLsb']

theorem cField_getLsbD (w : Word) (k : Nat) : (cField w).getLsbD k = (decide (k < 8) && w.getLsbD k) := by
  simp [cField, BitVec.getLsbD_extractLsb']

theorem dtField_getLsbD (w : Word) (k : Nat) : (dtField w).getLsbD k = (decide (k < 24) && w.getLsbD k) := by
  simp [dtField, BitVec.getLsbD_extractLsb']

/-- Field `op` of a word as a number. -/
theorem opField_toNat (w : Word) : (opField w).toNat = w.toNat / 2 ^ 24 := by
  have := w.isLt
  simp only [opField, BitVec.extractLsb'_toNat, Nat.shiftRight_eq_div_pow]
  omega

/-- Field `a` of a word as a number. -/
theorem aField_eq (w : Word) : aField w = BitVec.ofNat 8 (w.toNat / 2 ^ 16) := by
  apply BitVec.eq_of_toNat_eq
  simp [aField, BitVec.extractLsb'_toNat, Nat.shiftRight_eq_div_pow]

/-- Field `b` of a word as a number. -/
theorem bField_eq (w : Word) : bField w = BitVec.ofNat 8 (w.toNat / 2 ^ 8) := by
  apply BitVec.eq_of_toNat_eq
  simp [bField, BitVec.extractLsb'_toNat, Nat.shiftRight_eq_div_pow]

/-- Field `c` of a word as a number. -/
theorem cField_eq (w : Word) : cField w = BitVec.ofNat 8 w.toNat := by
  apply BitVec.eq_of_toNat_eq
  simp [cField, BitVec.extractLsb'_toNat]

/-- The field `op` of the word that `{op, a, b, c}` builds. -/
theorem opField_append (op : Byte) (operands : BitVec 24) : opField (op ++ operands : BitVec (8 + 24)) = op := by
  apply BitVec.eq_of_getLsbD_eq
  intro k hk
  rw [opField_getLsbD]
  have h : (op ++ operands : BitVec (8 + 24)).getLsbD (24 + k) = op.getLsbD k := by
    rw [BitVec.getLsbD_append]
    simp
  simpa [hk] using h

/-- The operand of `ADVANCE` in the word that `{op, a, b, c}` builds. -/
theorem dtField_append (op : Byte) (operands : BitVec 24) :
    dtField (op ++ operands : BitVec (8 + 24)) = operands := by
  apply BitVec.eq_of_getLsbD_eq
  intro k hk
  rw [dtField_getLsbD]
  have h : (op ++ operands : BitVec (8 + 24)).getLsbD k = operands.getLsbD k := by
    rw [BitVec.getLsbD_append]
    simp [hk]
  simpa [hk] using h

end Sys2Proof

namespace Sys2Proof.Machine

/-- Bit `k` of a byte into which a sample was shifted: the sample in bit 0, every other bit one place up. -/
theorem shiftIn_getLsbD (v : Byte) (data : Bool) (k : Nat) :
    (shiftIn v data).getLsbD k = if k = 0 then data else decide (k < 8) && v.getLsbD (k - 1) := by
  show (BitVec.extractLsb' 0 7 v ++ BitVec.ofBool data : BitVec (7 + 1)).getLsbD k = _
  rw [BitVec.getLsbD_append]
  rcases k with _ | k
  · simp
  · have h : ¬ k + 1 < 1 := by omega
    simp only [h, if_false, BitVec.getLsbD_extractLsb', Nat.zero_add, Nat.add_sub_cancel]
    rw [if_neg (by omega)]
    congr 1
    simp only [decide_eq_decide]
    omega

/-- The shift as a number: twice the byte plus the sample, bit 7 lost. -/
theorem shiftIn_eq_ofNat (v : Byte) (data : Bool) : shiftIn v data = BitVec.ofNat 8 (2 * v.toNat + data.toNat) := by
  apply BitVec.eq_of_getLsbD_eq
  intro k hk
  rw [shiftIn_getLsbD, BitVec.getLsbD_ofNat]
  rcases k with _ | k
  · cases data <;> simp
  · rw [if_neg (by omega)]
    have h : (2 * v.toNat + data.toNat) / 2 = v.toNat := by
      cases data with
      | false => simp
      | true => simp; omega
    simp [Nat.testBit_succ, h, BitVec.getLsbD]

/-- The low bit of the cycle counter is its parity. -/
theorem cycle_parity (c : BitVec 5) : c.getLsbD 0 = decide (c.toNat % 2 = 1) := by
  revert c
  decide

end Sys2Proof.Machine
end

