-- ==== Sys2Proof/Laws/Config.lean ====
section
/-! SUPPORT. The finite tables of Config.lean lose no function: every `LIGHT_ROUTE`, `KEY_CLASS` and `ALARM_ACK` of
00_scope R7 is the reading of some table (log 2). -/

namespace Sys2Proof

/-- Every byte, once. -/
def allBytes : List Byte := (List.finRange 256).map BitVec.ofFin

theorem mem_allBytes (b : Byte) : b ∈ allBytes :=
  List.mem_map.2 ⟨b.toFin, List.mem_finRange _, rfl⟩

/-- The table of a function on a list of bytes reads as the function there. -/
theorem lookup_table {α : Type} (f : Byte → α) (b : Byte) :
    ∀ keys : List Byte, b ∈ keys → (keys.map fun k => (k, f k)).lookup b = some (f b)
  | [], h => absurd h List.not_mem_nil
  | k :: keys, h => by
    rw [List.map_cons, List.lookup_cons]
    by_cases hk : b = k
    · simp [hk]
    · have : (b == k) = false := by simpa using hk
      rw [this]
      exact lookup_table f b keys ((List.mem_cons.1 h).resolve_left hk)

/-- Every `LIGHT_ROUTE` is the reading of some table. -/
theorem Config.lightRoute_any (c : Config) (f : Byte → Route) :
    ∃ t : List (Byte × Route), ∀ b, { c with lightRoutes := t }.lightRoute b = f b :=
  ⟨allBytes.map fun k => (k, f k), fun b => by simp [Config.lightRoute, lookup_table f b _ (mem_allBytes b)]⟩

/-- Every `KEY_CLASS` is the reading of some table. -/
theorem Config.keyClass_any (c : Config) (f : Byte → KeyClass) :
    ∃ t : List (Byte × KeyClass), ∀ b, { c with keyClasses := t }.keyClass b = f b :=
  ⟨allBytes.map fun k => (k, f k), fun b => by simp [Config.keyClass, lookup_table f b _ (mem_allBytes b)]⟩

/-- Every `ALARM_ACK` is the reading of some list of exceptions, whatever the default. -/
theorem Config.alarmAck_any (c : Config) (f : Byte → Byte → Bool) :
    ∃ t : List (Byte × Byte), ∀ c0 c1, { c with alarmAckExceptions := t }.alarmAck c0 c1 = f c0 c1 := by
  refine ⟨(allBytes ×ˢ allBytes).filter fun p => f p.1 p.2 != c.alarmAckDefault, fun c0 c1 => ?_⟩
  have h : ((allBytes ×ˢ allBytes).filter fun p => f p.1 p.2 != c.alarmAckDefault).contains (c0, c1)
      = (f c0 c1 != c.alarmAckDefault) := by
    rw [Bool.eq_iff_iff]
    simp [List.mem_filter, mem_allBytes]
  simp only [Config.alarmAck, h]
  cases f c0 c1 <;> cases c.alarmAckDefault <;> rfl

end Sys2Proof
end

