-- ==== Sys2Proof/Laws/PerInstr.lean ====
section
/-! SUPPORT. The family of statements about every operation as syntax: the word of an operation carries the operation's
code in bits 31..24 and its operand fields in bits 23..0 (30_encoding R102). -/

open Sys2Proof

/-- The word of the operation splits into its code and its operands (30_encoding R102). -/
def Sys2Proof.Laws.OpcodeLeads.Statement (i : Instr) : Prop :=
  opField (encode i) = i.opcode ∧ dtField (encode i) = i.operands

/-- The two halves of an encoded word are read back, whatever they are. -/
theorem Sys2Proof.Laws.encode_fields (i : Instr) : Sys2Proof.Laws.OpcodeLeads.Statement i :=
  ⟨opField_append i.opcode i.operands, dtField_append i.opcode i.operands⟩

theorem Sys2Proof.Laws.OpcodeLeads.initialise (x y z : Byte) :
    Sys2Proof.Laws.OpcodeLeads.Statement (.initialise x y z) := Sys2Proof.Laws.encode_fields _

theorem Sys2Proof.Laws.OpcodeLeads.start (x : Bool) :
    Sys2Proof.Laws.OpcodeLeads.Statement (.start x) := Sys2Proof.Laws.encode_fields _

theorem Sys2Proof.Laws.OpcodeLeads.poll :
    Sys2Proof.Laws.OpcodeLeads.Statement .poll := Sys2Proof.Laws.encode_fields _

theorem Sys2Proof.Laws.OpcodeLeads.push (x : Byte) :
    Sys2Proof.Laws.OpcodeLeads.Statement (.push x) := Sys2Proof.Laws.encode_fields _

theorem Sys2Proof.Laws.OpcodeLeads.reqBeep (x : Byte) :
    Sys2Proof.Laws.OpcodeLeads.Statement (.reqBeep x) := Sys2Proof.Laws.encode_fields _

theorem Sys2Proof.Laws.OpcodeLeads.reqTone (x : Byte) (y : Bool) (z : Byte) :
    Sys2Proof.Laws.OpcodeLeads.Statement (.reqTone x y z) := Sys2Proof.Laws.encode_fields _

theorem Sys2Proof.Laws.OpcodeLeads.reqBuzzer (x : Byte) :
    Sys2Proof.Laws.OpcodeLeads.Statement (.reqBuzzer x) := Sys2Proof.Laws.encode_fields _

theorem Sys2Proof.Laws.OpcodeLeads.keyRead :
    Sys2Proof.Laws.OpcodeLeads.Statement .keyRead := Sys2Proof.Laws.encode_fields _

theorem Sys2Proof.Laws.OpcodeLeads.keyClear :
    Sys2Proof.Laws.OpcodeLeads.Statement .keyClear := Sys2Proof.Laws.encode_fields _

theorem Sys2Proof.Laws.OpcodeLeads.frameRead :
    Sys2Proof.Laws.OpcodeLeads.Statement .frameRead := Sys2Proof.Laws.encode_fields _

theorem Sys2Proof.Laws.OpcodeLeads.ovfRead (x : Bool) :
    Sys2Proof.Laws.OpcodeLeads.Statement (.ovfRead x) := Sys2Proof.Laws.encode_fields _

theorem Sys2Proof.Laws.OpcodeLeads.indRead (x : BitVec 4) :
    Sys2Proof.Laws.OpcodeLeads.Statement (.indRead x) := Sys2Proof.Laws.encode_fields _

theorem Sys2Proof.Laws.OpcodeLeads.clockEdge (x : Bool) :
    Sys2Proof.Laws.OpcodeLeads.Statement (.clockEdge x) := Sys2Proof.Laws.encode_fields _

theorem Sys2Proof.Laws.OpcodeLeads.advance (x : BitVec 24) :
    Sys2Proof.Laws.OpcodeLeads.Statement (.advance x) := Sys2Proof.Laws.encode_fields _

theorem Sys2Proof.Laws.OpcodeLeads.silenceTimeout :
    Sys2Proof.Laws.OpcodeLeads.Statement .silenceTimeout := Sys2Proof.Laws.encode_fields _

theorem Sys2Proof.Laws.OpcodeLeads.acousticBoundary :
    Sys2Proof.Laws.OpcodeLeads.Statement .acousticBoundary := Sys2Proof.Laws.encode_fields _

theorem Sys2Proof.Laws.OpcodeLeads.frameComplete :
    Sys2Proof.Laws.OpcodeLeads.Statement .frameComplete := Sys2Proof.Laws.encode_fields _

theorem Sys2Proof.Laws.OpcodeLeads.pop :
    Sys2Proof.Laws.OpcodeLeads.Statement .pop := Sys2Proof.Laws.encode_fields _
end

