-- ==== Sys2Proof/Tests/Slice0.lean ====
section
/-! SUPPORT. Tests on fixed values: what the checks refuse, the word of every operation, one-step tests whose expected
values come from spec/95_test_vectors.md, and for every statement a concrete state that meets its hypotheses. -/

open Sys2Proof Sys2Proof.Machine Sys2Proof.Statements

namespace Sys2Proof.Tests

/-! ### Small states -/

/-- The "started state" of 95_test_vectors: after `INITIALIZE 5, 6, 7` and `START 0` at `NOW = 0`. -/
def started : State :=
  { State.reset with
    ctl := { Control.reset with bound := true, running := true, pinClk := 5, pinRd := 6, pinWr := 7 }
    smp := { Sampler.reset with silArmed := true } }

/-- The cursors after `n` edges of a frame cycle. -/
def atCycle (n : Nat) (s : State) : State :=
  { s with smp := { s.smp with
      cyc := BitVec.ofNat 5 n, bitCnt := BitVec.ofNat 5 (n / 2), byteIdx := BitVec.ofNat 1 (n / 16) } }

/-- The time, and an edge taken at it. -/
def atTime (now : Time) (s : State) : State :=
  { s with ctl := { s.ctl with now := now }, smp := { s.smp with lastEdge := now } }

/-- A press begun at time 0. -/
def pressing (src : TxSrc) (key : Byte) (window : Bool) (s : State) : State :=
  { s with enc := { txSrc := src, txKey := key, txT0 := 0, txWindow := window, wrKey := false } }

/-- The alarm slot with code 0xF0, and a response pending since time 0. -/
def alarm (detected pending : Bool) (s : State) : State :=
  { s with alm := { detected := detected, code := 0xF0, respPending := pending, tIssue := 0 } }

/-- A ring of capacity 4 with one entry. -/
def holding (key : Byte) (s : State) : State := { s with kb := { mem := [(0, key)], wr := 1, rd := 0, overflow := false } }

/-- A full ring of capacity 4. -/
def full (s : State) : State :=
  { s with kb := { mem := [(0, 1), (1, 2), (2, 3), (3, 4)], wr := 4, rd := 0, overflow := false } }

/-- A request in flight since time 0. -/
def sounding (ty : AcType) (n : Byte) (interval : BitVec 4) (s : State) : State :=
  { s with ac := { Acoustic.reset with acType := ty, n := n, interval := interval } }

/-- A request that waits behind the one in flight. -/
def waiting (n : Byte) (interval : BitVec 4) (s : State) : State :=
  { s with ac := { s.ac with qValid := true, qN := n, qInterval := interval } }

/-- A complete frame in the buffers, and whether a frame was polled before. -/
def ready (c0 c1 m0 m1 : Byte) (startup : Bool) (s : State) : State :=
  { s with
    smp := { s.smp with cmdFrame := ⟨c0, c1⟩, modFrame := ⟨m0, m1⟩, frameReady := true }
    itp := { s.itp with startup := startup } }

/-- The started state under another configuration. -/
def configured (c : Config) : State := { started with cfg := c }

/-- The state after one operation. -/
def after (i : Instr) (s : State) : State :=
  match exec i s with
  | .next t => t
  | .fault _ => s
  | .refused _ => s

/-! ### What the checks refuse -/

theorem test_wellFormed_refuses_internal :
    Instr.wellFormed .silenceTimeout = false ∧ Instr.wellFormed .acousticBoundary = false
      ∧ Instr.wellFormed .frameComplete = false ∧ Instr.wellFormed .pop = false := by decide

theorem test_wellFormed_accepts_stimuli :
    Instr.wellFormed (.advance 0) = true ∧ Instr.wellFormed .poll = true ∧ Instr.wellFormed (.clockEdge true) = true := by
  decide

/-- One configuration for each constraint of 00_scope R7, which breaks it. -/
theorem test_config_valid_refuses :
    Config.ref.valid = true ∧ { Config.ref with kbCapacity := 0 }.valid = false
      ∧ { Config.ref with kbCapacity := 128 }.valid = false
      ∧ { Config.ref with silenceWindowUs := 0 }.valid = false
      ∧ { Config.ref with silenceWindowUs := 2 ^ 31 }.valid = false
      ∧ { Config.ref with timeUnitUs := 0 }.valid = false
      ∧ { Config.ref with timeUnitUs := 8421505 }.valid = false
      ∧ { Config.ref with timeUnitUs := 999 }.valid = false
      ∧ { Config.ref with beepOnUs := 0 }.valid = false
      ∧ { Config.ref with timeUnitUs := 8000000, beepOnUs := 2 ^ 20, beepGapUs := 2 ^ 24 }.valid = false
      ∧ { Config.ref with beepGapUs := 0 }.valid = false
      ∧ { Config.ref with lightRoutes := [] }.valid = false
      ∧ { Config.ref with longHoldUs := 2 ^ 31 }.valid = false
      ∧ { Config.ref with alarmMinHoldUs := 2 ^ 31 }.valid = false
      ∧ { Config.ref with alarmReissueUs := 2 ^ 31 }.valid = false := by decide

theorem test_config_valid_boundaries :
    { Config.ref with kbCapacity := 1 }.valid = true ∧ { Config.ref with kbCapacity := 127 }.valid = true
      ∧ { Config.ref with silenceWindowUs := 1 }.valid = true
      ∧ { Config.ref with silenceWindowUs := 2 ^ 31 - 1 }.valid = true
      ∧ { Config.ref with timeUnitUs := 13, beepOnUs := 1, beepGapUs := 1 }.valid = true
      ∧ { Config.ref with timeUnitUs := 8421504 }.valid = true := by decide

theorem test_canonical_form_refuses :
    Memory.wf [(1, 5), (0, 6)] = false ∧ Memory.wf [(1, 5), (1, 6)] = false ∧ Memory.wf [(0, 0)] = false
      ∧ Memory.wf [(0, 5), (3, 6)] = true := by decide

/-! ### Decoding: words written from the table of 30_encoding R105 and R106, and from V72, V73 -/

theorem test_decode_initialise : decode 0x01050607 = .ok (.initialise 5 6 7) := by decide
theorem test_decode_start : decode 0x02010000 = .ok (.start true) ∧ decode 0x02FE0000 = .ok (.start false) := by decide
theorem test_decode_poll : decode 0x03000000 = .ok .poll := by decide
theorem test_decode_push : decode 0x047A0000 = .ok (.push 0x7A) := by decide
theorem test_decode_reqBeep : decode 0x05050000 = .ok (.reqBeep 5) := by decide
theorem test_decode_reqTone : decode 0x06020104 = .ok (.reqTone 2 true 4) := by decide
theorem test_decode_reqBuzzer : decode 0x07020000 = .ok (.reqBuzzer 2) := by decide
theorem test_decode_keyRead : decode 0x08000000 = .ok .keyRead := by decide
theorem test_decode_keyClear : decode 0x09000000 = .ok .keyClear := by decide
theorem test_decode_frameRead : decode 0x0A000000 = .ok .frameRead := by decide
theorem test_decode_ovfRead : decode 0x0B030000 = .ok (.ovfRead true) := by decide
theorem test_decode_indRead : decode 0x0CF30000 = .ok (.indRead 3) := by decide
theorem test_decode_clockEdge : decode 0x80010000 = .ok (.clockEdge true) ∧ decode 0x80FE0000 = .ok (.clockEdge false) := by
  decide
theorem test_decode_advance : decode 0x810007D1 = .ok (.advance 2001) ∧ decode 0x81FFFFFF = .ok (.advance 0xFFFFFF) := by
  decide
theorem test_decode_silenceTimeout : decode 0xC0000000 = .ok .silenceTimeout := by decide
theorem test_decode_acousticBoundary : decode 0xC1000000 = .ok .acousticBoundary := by decide
theorem test_decode_frameComplete : decode 0xC2000000 = .ok .frameComplete := by decide
theorem test_decode_pop : decode 0xC3000000 = .ok .pop := by decide

theorem test_decode_reserved :
    decodeStimulus 0x00000000 = .error (.unassigned 0x00) ∧ decodeStimulus 0x0D000000 = .error (.unassigned 0x0D)
      ∧ decodeStimulus 0x7FFFFFFF = .error (.unassigned 0x7F) ∧ decodeStimulus 0x82000000 = .error (.unassigned 0x82)
      ∧ decodeStimulus 0xC0000000 = .error (.internalCode 0xC0) ∧ decodeStimulus 0xC3000000 = .error (.internalCode 0xC3)
      ∧ decodeStimulus 0xFFFFFFFF = .error (.unassigned 0xFF) := by decide

theorem test_encode : encode (.reqTone 2 true 4) = 0x06020104 ∧ encode (.indRead 1) = 0x0C010000
    ∧ encode (.advance 170) = 0x810000AA ∧ encode (.ovfRead true) = 0x0B010000 := by decide

theorem test_decodeTableWord : decodeTableWord 32 0x01050607 = some (.initialise 5 6 7) ∧ decodeTableWord 32 0x0D000000 = none := by
  decide

/-! ### One step: 95_test_vectors -/

/-- V71: `INITIALIZE` keeps `NOW` and records the pins. -/
theorem test_initialise : (after (.initialise 9 8 7) (atTime 10 (full (sounding .beep 2 0 started)))).ctl =
    { Control.reset with now := 10, bound := true, pinClk := 9, pinRd := 8, pinWr := 7 } := by decide

/-- V53: the ring and the storage are wiped. -/
theorem test_initialise_wipes : (after (.initialise 1 2 3) (holding 0x42 State.reset)).kb = KeyBuffer.reset := by decide

/-- V70: nothing before `INITIALIZE`; `RUNNING`, `TRACE_EN` and `LAST_EDGE` after it. -/
theorem test_start : (after (.start true) State.reset).ctl.running = false
    ∧ (after (.start true) (atTime 7 (after (.initialise 1 2 3) State.reset))).ctl.traceEn = true
    ∧ (after (.start true) (atTime 7 (after (.initialise 1 2 3) State.reset))).smp.lastEdge = 7 := by decide

/-- V70: a second `START` does nothing. -/
theorem test_start_again : (after (.start true) (atTime 10 started)).ctl.traceEn = false := by decide

/-- V60, row 1: the start-up cycle seeds, and reports no change. -/
theorem test_poll_seeds : (after .poll (ready 0x05 0x03 0xFF 0xFF true started)).itp.ind[1] = .on
    ∧ (after .poll (ready 0x05 0x03 0xFF 0xFF true started)).itp.ind[2] = .off
    ∧ (after .poll (ready 0x05 0x03 0xFF 0xFF true started)).itp.indChanged = 0 := by decide

/-- V60, row 9: `Zone 8` blinks because its blink bit was set before. -/
theorem test_poll_zone :
    let s := ready 0x07 0x80 0xFF 0xFF false started
    let t := after .poll { s with itp := { s.itp with bl := ⟨0x00, 0xFF⟩ } }
    t.itp.ind[15] = .blinking ∧ t.itp.ind[14] = .off ∧ t.itp.indChanged = 0x8000 := by decide

/-- V51, round 7: the write pointer wraps at `2 * KB_CAPACITY`. -/
theorem test_push_wraps :
    let s := { started with kb := { mem := [], wr := 7, rd := 7, overflow := false } }
    (after (.push 0x17) s).kb = { mem := [(3, 0x17)], wr := 0, rd := 7, overflow := false } := by decide

/-- V52: an alarm code goes to its slot; a second one is rejected. -/
theorem test_push_alarm : (after (.push 0xF0) State.reset).alm.detected = true
    ∧ (after (.push 0xF0) State.reset).kb.overflow = false
    ∧ (after (.push 0xF0) (alarm true false State.reset)).kb.overflow = true := by decide

/-- V41: 200 beeps are clamped to 128, 0 beeps do nothing. -/
theorem test_reqBeep : (after (.reqBeep 200) started).ac.n = 128 ∧ (after (.reqBeep 0) started).ac.acType = .none := by decide

/-- V41: `REQ_TONE 9, 3, 200`; `REQ_TONE 3, 1, 0`. -/
theorem test_reqTone : (after (.reqTone 9 true 200) started).ac.n = 7 ∧ (after (.reqTone 9 true 200) started).ac.interval = 15
    ∧ (after (.reqTone 9 true 200) started).toneCont = true ∧ (after (.reqTone 3 true 0) started).ac.acType = .none := by
  decide

/-- V41: a buzzer overrides a tone. -/
theorem test_reqBuzzer : (after (.reqBuzzer 255) (sounding .tone 7 15 started)).ac.n = 255
    ∧ (after (.reqBuzzer 255) (sounding .tone 7 15 started)).toneCont = false := by decide

/-- V62. -/
theorem test_keyRead : (after .keyRead (after .poll (ready 0x11 0x55 0x2B 0xFF true started))).result = 0x12B := by decide

/-- V62. -/
theorem test_keyClear :
    (after .keyRead (after .keyClear (after .poll (ready 0x11 0x55 0x2B 0xFF true started)))).result = 0x2B := by decide

/-- S1. -/
theorem test_frameRead : (after .frameRead (ready 0xA5 0x3C 0x0F 0xF0 true started)).result = 0xA53C0FF0 := by decide

/-- V23: the fifth push finds a full ring, and `OVF_READ 1 -> 1` clears the flag. -/
theorem test_ovfRead : (after (.ovfRead true) (after (.push 5) (full started))).result = 1
    ∧ (after (.ovfRead true) (after (.push 5) (full started))).kb.overflow = false
    ∧ (after (.ovfRead false) (after (.push 5) (full started))).kb.overflow = true := by decide

/-- V60, row 2: `IND_READ 1 -> 6`. -/
theorem test_indRead :
    let s := ready 0x06 0x02 0xFF 0xFF false started
    let t := after .poll { s with itp := { s.itp with st := ⟨0x03, 0⟩, ind := #v[.on, .on, .off, .off, .off, .off, .off, .off,
      .off, .off, .off, .off, .off, .off, .off, .off] } }
    (after (.indRead 1) t).result = 6 ∧ (after (.indRead 0) t).result = 1 := by decide

/-- V6, last edge: the stale bit has moved up. -/
theorem test_clockEdge_panel :
    let s := { started with smp := { started.smp with cmdSr := ⟨0x01, 0⟩ } }
    (after (.clockEdge false) s).smp.cmdSr = ⟨0x02, 0⟩ ∧ (after (.clockEdge false) s).smp.cyc = 1 := by decide

/-- Program P2: the POP at the window-close edge. -/
theorem test_clockEdge_pops :
    let t := after (.clockEdge true) (atTime 8500 (atCycle 16 (pressing .fifo 0x7A true (holding 0x7A started))))
    t.fired = [.pop 8500 (some 0x7A)] ∧ t.kbCount = 0 ∧ t.enc.txSrc = .none := by decide

/-- V7: 2000 microseconds fire nothing, 2001 fire the silence timeout. -/
theorem test_advance : (after (.advance 2000) started).smp.silArmed = true
    ∧ (after (.advance 2001) started).fired = [.silenceTimeout 2001] := by decide

/-- V9: the tone counter wraps; the boundary of `REQ_BEEP 2` falls at `NOW = 44`. -/
theorem test_advance_wraps :
    let t := after (.advance 300) (after (.reqBeep 2) (atTime 0xFFFFFF00 started))
    t.ctl.now = 44 ∧ t.fired = [.acousticBoundary 44] ∧ t.ac.acType = .none := by decide

/-- V24: the press survives a silence. -/
theorem test_silenceTimeout :
    let t := after .silenceTimeout (atCycle 4 (pressing .fifo 0x7A true (holding 0x7A started)))
    t.smp.cyc = 0 ∧ t.enc.txWindow = false ∧ t.enc.txSrc = .fifo ∧ t.kbCount = 1 := by decide

/-- V42, V43: the waiting request is promoted; a tone starts its next period. -/
theorem test_acousticBoundary :
    (after .acousticBoundary (waiting 3 0 (sounding .beep 2 0 (atTime 300 started)))).ac =
      { Acoustic.reset with acType := .beep, n := 3, t0 := 300 }
    ∧ (after .acousticBoundary (sounding .tone 2 4 (atTime 4000 started))).ac.t0 = 4000 := by decide

/-- V23, frame 3: an elapsed time of 4000 or more acknowledges, one of 3999 does not. -/
theorem test_frameComplete : (after .frameComplete (atTime 4000 (alarm false true started))).alm.respPending = false
    ∧ (after .frameComplete (atTime 3999 (alarm false true started))).alm.respPending = true := by decide

/-- V51: the read pointer wraps at `2 * KB_CAPACITY`; the cell is not cleared. -/
theorem test_pop :
    let s := { started with kb := { mem := [(3, 0x17)], wr := 0, rd := 7, overflow := false } }
    (after .pop s).kb = { mem := [(3, 0x17)], wr := 0, rd := 0, overflow := false }
      ∧ (after .pop s).fired = [.pop 0 (some 0x17)] := by decide

/-- The first step after reset runs the word that `withFetchWord` places (V73). -/
theorem test_step : step (State.reset.withFetchWord 32 0x01050607) = exec (.initialise 5 6 7) State.reset := rfl

/-- 30_encoding R110, R111: a line of a trace. -/
theorem test_assembleLine : assembleLine .ref "REQ_TONE 2, 1, 4 ; tone" = some ⟨[0x06020104], none⟩
    ∧ assembleLine .ref "SILENCE" = some ⟨[0x810007D1], none⟩ ∧ assembleLine .ref "POLL -> 1" = some ⟨[0x03000000], some 1⟩ := by
  decide

/-- Log 17: an omitted operand at the end is 0 (R110), an empty operand place makes the line malformed. -/
theorem test_assembleLine_omitted : assembleLine .ref "REQ_TONE 2, 1" = some ⟨[0x06020100], none⟩
    ∧ assembleLine .ref "REQ_TONE 2, , 4" = none := by decide

/-! ### The hypotheses of the statements can be met -/

theorem started_inv : started.Inv := by
  refine ⟨?_, ?_, ?_, ?_, ?_, ?_, ?_, ?_, ?_, ?_, ?_⟩ <;> decide

theorem full_inv : (full started).Inv := by
  refine ⟨?_, ?_, ?_, ?_, ?_, ?_, ?_, ?_, ?_, ?_, ?_⟩ <;> decide

theorem witness_EncodeOfDecodedWordKeepsReadBits : decode 0x02FF1234 = .ok (.start true) := by decide

theorem witness_StepRunsTheDecodedStimulus :
    (after .poll { started with inputs := [0x03000000, 7] }).inputs = [0x03000000] ++ [7] ∧ decode 0x03000000 = .ok .poll
      ∧ Instr.wellFormed .poll = true ∧ started.inputs = [] := by decide

/-- The clauses on both sides of every boundary of the table of R105. -/
theorem witness_ReservedWordsDoNothing : started.Ready
    ∧ (0x01000000 : Word).toNat / 2 ^ 24 = 1 ∧ (0x0CFFFFFF : Word).toNat / 2 ^ 24 = 12
    ∧ (0x80FE0000 : Word).toNat / 2 ^ 24 = 0x80 ∧ (0x81000000 : Word).toNat / 2 ^ 24 = 0x81
    ∧ (0x00FFFFFF : Word).toNat / 2 ^ 24 = 0 ∧ (0x0D000000 : Word).toNat / 2 ^ 24 = 13
    ∧ (0x7FFFFFFF : Word).toNat / 2 ^ 24 = 0x7F ∧ (0x82000000 : Word).toNat / 2 ^ 24 = 0x82 := by decide

theorem witness_BrokenConfigurationIsRefused : ¬ (configured { Config.ref with kbCapacity := 128 }).cfg.kbCapacity ≤ 127
    ∧ ¬ 1 ≤ (configured { Config.ref with silenceWindowUs := 0 }).cfg.silenceWindowUs := by decide

theorem witness_EncodingThatNeverOccursIsRefused : started.cfg.valid = true
    ∧ 16 < ({ started.smp with bitCnt := 17 } : Sampler).bitCnt.toNat
    ∧ 2 * started.cfg.kbCapacity ≤ ({ started.kb with wr := 8 } : KeyBuffer).wr.toNat
    ∧ 2 * started.cfg.kbCapacity ≤ ({ started.kb with rd := 8 } : KeyBuffer).rd.toNat
    ∧ started.cfg.kbCapacity < ({ started with kb := { started.kb with wr := 5 } } : State).kbCount
    ∧ (sounding .beep 0 0 started).ac.acType ≠ .none ∧ (sounding .beep 0 0 started).ac.n = 0 := by decide

theorem witness_ResetHasTheStatedValues : (full started).Ready := by decide

theorem witness_ResetSatisfiesTheInvariant : Config.ref.valid = true := by decide

theorem witness_InitializeRestoresReset : (full started).Ready ∧ (0x01050607 : Word).toNat / 2 ^ 24 = 0x01 := by decide

/-- Both cases of `START`. -/
theorem witness_StartArmsOnceBound : (0x02010000 : Word).toNat / 2 ^ 24 = 0x02 ∧ started.Ready
    ∧ (after (.initialise 1 2 3) State.reset).Ready
    ∧ (after (.initialise 1 2 3) State.reset).ctl.bound = true
    ∧ (after (.initialise 1 2 3) State.reset).ctl.running = false := by decide

theorem witness_EdgeBeforeStartChangesNothing : State.reset.Ready ∧ State.reset.ctl.running = false := by decide

/-- At `CYC` 0, and at `CYC` 16 with no window open. -/
theorem witness_PanelEdgeShiftsTheCommandByte : (0x80000000 : Word).toNat / 2 ^ 24 = 0x80
    ∧ (atCycle 16 started).Ready ∧ (atCycle 16 started).ctl.running = true ∧ (atCycle 16 started).smp.cyc.toNat % 2 = 0
    ∧ ¬ ((atCycle 16 started).smp.bitCnt = 8 ∧ (atCycle 16 started).enc.txWindow = true) := by decide

/-- At the byte boundary, `CYC` 15, and at the last position before completion, `CYC` 29. -/
theorem witness_ModuleEdgeShiftsTheModuleByte :
    (atCycle 15 started).Ready ∧ (atCycle 15 started).ctl.running = true ∧ (atCycle 15 started).smp.cyc.toNat % 2 = 1
    ∧ (atCycle 15 started).smp.bitCnt + 1 ≠ (atCycle 15 started).smp.expBits
    ∧ ((atCycle 15 started).smp.bitCnt.toNat + 1) % 8 = 0
    ∧ (atCycle 29 started).Ready ∧ (atCycle 29 started).smp.cyc.toNat % 2 = 1
    ∧ (atCycle 29 started).smp.bitCnt + 1 ≠ (atCycle 29 started).smp.expBits := by decide

theorem witness_LastEdgeCompletesTheFrame :
    (atCycle 31 started).Ready ∧ (atCycle 31 started).ctl.running = true ∧ (atCycle 31 started).smp.cyc.toNat % 2 = 1
    ∧ (atCycle 31 started).smp.bitCnt + 1 = (atCycle 31 started).smp.expBits := by decide

/-- With the longest time before every other edge. -/
theorem witness_ThirtyTwoEdgesPlaceEveryBit : started.Inv ∧ started.ctl.running = true ∧ started.smp.cyc = 0
    ∧ ∀ j < 32, (if j % 2 = 0 then 2000 else 0 : BitVec 24).toNat ≤ started.cfg.silenceWindowUs :=
  ⟨started_inv, by decide⟩

theorem witness_FrameCompleteHandsOverFourBytes : (atCycle 31 started).Ready := by decide

theorem witness_SilenceTimeoutRealignsTheCursors : (atCycle 7 started).Ready := by decide

theorem witness_ReadyOnlyByACompletedFrame :
    let s := { atCycle 31 started with inputs := [0x80000000] }
    ∃ t, s.CursorsAgree ∧ step s = .next t ∧ s.smp.frameReady = false ∧ t.smp.frameReady = true :=
  ⟨_, by decide, rfl, by decide, by decide⟩

theorem witness_FrameIsPolledOnceWithItsBytes : started.Inv ∧ started.ctl.running = true ∧ started.smp.cyc = 0
    ∧ started.smp.frameReady = false ∧ (2000 : BitVec 24).toNat ≤ started.cfg.silenceWindowUs := ⟨started_inv, by decide⟩

/-- With a frame cut short after one edge, and after 31. -/
theorem witness_FrameAfterSilenceIsDecoded : started.Inv ∧ started.ctl.running = true ∧ started.smp.cyc = 0
    ∧ started.smp.frameReady = false ∧ (2000 : BitVec 24).toNat ≤ started.cfg.silenceWindowUs ∧ 0 < 1 ∧ 31 < 32
    ∧ started.cfg.silenceWindowUs < 0xFFFFFF := ⟨started_inv, by decide⟩

theorem witness_AdvanceMovesTimeAndItsFrame : started.Ready ∧ (0x81FFFFFF : Word).toNat / 2 ^ 24 = 0x81 := by decide

/-- The last instant before each deadline. -/
theorem witness_AdvanceBeforeTheDeadlinesFiresNothing :
    (sounding .beep 14 0 started).Ready ∧ (sounding .beep 14 0 started).elapsed 0 + 2000 ≤ started.cfg.silenceWindowUs
    ∧ (sounding .beep 14 0 started).elapsed 0 + 2000 < (sounding .beep 14 0 started).ac.length started.cfg
    ∧ (sounding .beep 10 0 started).Ready
    ∧ (sounding .beep 10 0 started).elapsed 0 + 1499 + 1 = (sounding .beep 10 0 started).ac.length started.cfg := by decide

/-- One microsecond past the window, with nothing in flight and with a beep one microsecond before its end. -/
theorem witness_SilenceFiresJustAfterItsWindow :
    let s := { after (.reqBeep 13) (atTime 52 started) with smp := started.smp }
    started.Inv ∧ started.ac.acType = .none ∧ started.ctl.running = true ∧ started.smp.silArmed = true
    ∧ started.elapsed started.smp.lastEdge + (2001 : BitVec 24).toNat = started.cfg.silenceWindowUs + 1
    ∧ s.Inv ∧ s.ctl.running = true ∧ s.smp.silArmed = true ∧ s.ac.acType ≠ .none
    ∧ s.elapsed s.ac.t0 + (1949 : BitVec 24).toNat + 1 = requestLength s
    ∧ s.elapsed s.smp.lastEdge + (1949 : BitVec 24).toNat = s.cfg.silenceWindowUs + 1 := by
  refine ⟨started_inv, ?_, ?_, ?_, ?_, ⟨?_, ?_, ?_, ?_, ?_, ?_, ?_, ?_, ?_, ?_, ?_⟩, ?_, ?_, ?_, ?_, ?_⟩ <;> decide

/-- A beep, a tone with a waiting request and a buzzer, each at the end of its length. -/
theorem witness_BoundaryFiresAtTheEndOfItsRequest :
    (sounding .beep 10 0 started).Inv ∧ (sounding .beep 10 0 started).ac.acType ≠ .none
    ∧ (sounding .beep 10 0 started).elapsed 0 + (1500 : BitVec 24).toNat = requestLength (sounding .beep 10 0 started)
    ∧ (waiting 2 3 (sounding .tone 1 2 started)).Inv ∧ (waiting 2 3 (sounding .tone 1 2 started)).ac.qValid = true
    ∧ (sounding .tone 1 2 started).elapsed 0 + (2000 : BitVec 24).toNat = requestLength (sounding .tone 1 2 started)
    ∧ (sounding .buzzer 1 0 started).Inv
    ∧ (sounding .buzzer 1 0 started).elapsed 0 + (1050 : BitVec 24).toNat = requestLength (sounding .buzzer 1 0 started)
    ∧ started.elapsed started.smp.lastEdge + (2000 : BitVec 24).toNat ≤ started.cfg.silenceWindowUs := by
  refine ⟨⟨?_, ?_, ?_, ?_, ?_, ?_, ?_, ?_, ?_, ?_, ?_⟩, ?_, ?_, ⟨?_, ?_, ?_, ?_, ?_, ?_, ?_, ?_, ?_, ?_, ?_⟩, ?_, ?_,
    ⟨?_, ?_, ?_, ?_, ?_, ?_, ?_, ?_, ?_, ?_, ?_⟩, ?_, ?_⟩ <;> decide

/-- V8, at the instant itself. -/
theorem witness_SilenceFiresBeforeBoundaryAtOneInstant :
    let s := { after (.reqBeep 13) (atTime 51 started) with smp := started.smp }
    s.Ready ∧ s.ctl.running = true ∧ s.smp.silArmed = true ∧ s.ac.acType ≠ .none
    ∧ s.elapsed s.smp.lastEdge + 1950 = s.cfg.silenceWindowUs + 1 ∧ s.elapsed s.ac.t0 + 1950 = requestLength s
    ∧ (1950 : BitVec 24).toNat = 1950 ∧ 1950 ≤ (1951 : BitVec 24).toNat := by decide

theorem witness_AdvanceIsAdditive : started.Inv ∧ (0xFFFFFE : BitVec 24).toNat + (1 : BitVec 24).toNat < 2 ^ 24 :=
  ⟨started_inv, by decide⟩

/-- A press in progress. -/
theorem witness_WindowOpenEdgeSelectsTheKey_goes_on :
    let s := atTime 4 (atCycle 1 (pressing .fifo 0xE0 false (holding 0xE0 started)))
    s.Inv ∧ s.ctl.running = true ∧ s.smp.cyc = 1 ∧ s.enc.txSrc ≠ .none := by
  refine ⟨⟨?_, ?_, ?_, ?_, ?_, ?_, ?_, ?_, ?_, ?_, ?_⟩, ?_, ?_, ?_⟩ <;> decide

/-- An alarm key ready, a buffered key behind it. -/
theorem witness_WindowOpenEdgeSelectsTheKey_alarm :
    let s := atCycle 1 (alarm true false (holding 0x31 started))
    s.Inv ∧ s.smp.cyc = 1 ∧ s.enc.txSrc = .none ∧ s.alm.detected = true ∧ s.alm.respPending = false := by
  refine ⟨⟨?_, ?_, ?_, ?_, ?_, ?_, ?_, ?_, ?_, ?_, ?_⟩, ?_, ?_, ?_, ?_⟩ <;> decide

/-- An alarm key that waits for its acknowledgment does not hold up a buffered key. -/
theorem witness_WindowOpenEdgeSelectsTheKey_fifo :
    let s := atCycle 1 (alarm true true (holding 0x31 started))
    s.Inv ∧ s.smp.cyc = 1 ∧ s.enc.txSrc = .none ∧ ¬ (s.alm.detected = true ∧ s.alm.respPending = false)
      ∧ s.queue = 0x31 :: [] := by
  refine ⟨⟨?_, ?_, ?_, ?_, ?_, ?_, ?_, ?_, ?_, ?_, ?_⟩, ?_, ?_, ?_, ?_⟩ <;> decide

theorem witness_WindowOpenEdgeSelectsTheKey_nothing :
    let s := atCycle 1 started
    s.Inv ∧ s.smp.cyc = 1 ∧ s.enc.txSrc = .none ∧ ¬ (s.alm.detected = true ∧ s.alm.respPending = false) ∧ s.queue = [] := by
  refine ⟨⟨?_, ?_, ?_, ?_, ?_, ?_, ?_, ?_, ?_, ?_, ?_⟩, ?_, ?_, ?_, ?_⟩ <;> decide

/-- At bit positions 1, 7 and 8. -/
theorem witness_ModuleEdgeDrivesTheKeyBit : (atCycle 3 started).Ready ∧ (atCycle 3 started).ctl.running = true
    ∧ (atCycle 3 started).smp.cyc.toNat % 2 = 1 ∧ (atCycle 3 started).smp.bitCnt.toNat = 1
    ∧ (atCycle 15 started).Ready ∧ (atCycle 15 started).smp.cyc.toNat % 2 = 1 ∧ (atCycle 15 started).smp.bitCnt.toNat = 7
    ∧ (atCycle 17 started).Ready ∧ (atCycle 17 started).smp.cyc.toNat % 2 = 1
    ∧ (atCycle 17 started).smp.bitCnt.toNat = 8 := by decide

/-- A short key at its window-close edge. -/
theorem witness_WindowCloseEdgeRetiresTheKey_short :
    let s := atTime 8500 (atCycle 16 (pressing .fifo 0x7A true (holding 0x7A started)))
    s.Inv ∧ s.ctl.running = true ∧ s.smp.cyc = 16 ∧ s.enc.txWindow = true ∧ s.enc.txSrc = .fifo
      ∧ s.cfg.keyClass s.enc.txKey = .short := by
  refine ⟨⟨?_, ?_, ?_, ?_, ?_, ?_, ?_, ?_, ?_, ?_, ?_⟩, ?_, ?_, ?_, ?_, ?_⟩ <;> decide

/-- A long key held for exactly its hold time, and for one microsecond less. -/
theorem witness_WindowCloseEdgeRetiresTheKey_long :
    let s := fun now => atTime now (atCycle 16 (pressing .fifo 0xE0 true (holding 0xE0 started)))
    (s 5000).Inv ∧ (s 4999).Inv ∧ (s 5000).cfg.keyClass (s 5000).enc.txKey = .long
      ∧ (s 5000).cfg.longHoldUs ≤ ((s 5000).ctl.now - (s 5000).enc.txT0).toNat
      ∧ ((s 4999).ctl.now - (s 4999).enc.txT0).toNat < (s 4999).cfg.longHoldUs := by
  refine ⟨⟨?_, ?_, ?_, ?_, ?_, ?_, ?_, ?_, ?_, ?_, ?_⟩, ⟨?_, ?_, ?_, ?_, ?_, ?_, ?_, ?_, ?_, ?_, ?_⟩, ?_, ?_, ?_⟩ <;> decide

/-- An alarm key held for exactly its minimum, and for one microsecond less. -/
theorem witness_WindowCloseEdgeRetiresTheKey_alarm :
    let s := fun now => atTime now (atCycle 16 (pressing .alarm 0xF0 true (alarm true false started)))
    (s 3000).Inv ∧ (s 2999).Inv ∧ (s 3000).enc.txSrc = .alarm
      ∧ (s 3000).cfg.alarmMinHoldUs ≤ ((s 3000).ctl.now - (s 3000).enc.txT0).toNat
      ∧ ((s 2999).ctl.now - (s 2999).enc.txT0).toNat < (s 2999).cfg.alarmMinHoldUs := by
  refine ⟨⟨?_, ?_, ?_, ?_, ?_, ?_, ?_, ?_, ?_, ?_, ?_⟩, ⟨?_, ?_, ?_, ?_, ?_, ?_, ?_, ?_, ?_, ?_, ?_⟩, ?_, ?_, ?_⟩ <;> decide

/-- At the end of the suppression window. -/
theorem witness_ResponsePendingUntilAcknowledged :
    let s := atTime 4000 (atCycle 31 (alarm false true started))
    ∃ t, exec (.clockEdge true) s = .next t ∧ s.alm.respPending = true ∧ t.alm.respPending = false :=
  ⟨_, rfl, by decide, by decide⟩

theorem witness_ShortKeyIsSentOnceAndPopped : started.Inv ∧ started.ctl.running = true ∧ started.smp.cyc = 0
    ∧ started.enc.txSrc = .none ∧ started.kbCount = 0 ∧ started.alm.detected = false ∧ started.ac.acType = .none
    ∧ started.cfg.keyClass 0x7A = .short
    ∧ ∀ j < 17, (if j % 2 = 0 then 2000 else 0 : BitVec 24).toNat ≤ started.cfg.silenceWindowUs :=
  ⟨started_inv, by decide⟩

theorem witness_WritePinIsSharedByPriority : State.reset.ctl.running = false ∧ started.ctl.running = true
    ∧ (pressing .fifo 0 true started).enc.txWindow = true ∧ started.enc.txWindow = false := by decide

/-- Not running, nothing in flight, a beep in flight, another type in flight. -/
theorem witness_BeepRequestIsClampedQueuedOrStarted : (0x05010000 : Word).toNat / 2 ^ 24 = 0x05 ∧ State.reset.Ready
    ∧ State.reset.ctl.running = false ∧ started.Ready ∧ started.ctl.running = true
    ∧ (sounding .beep 128 0 started).Ready ∧ (sounding .tone 7 15 started).Ready := by decide

theorem witness_ToneRequestIsClampedQueuedOrStarted : (0x06010101 : Word).toNat / 2 ^ 24 = 0x06 ∧ State.reset.Ready
    ∧ State.reset.ctl.running = false ∧ started.Ready ∧ started.ctl.running = true
    ∧ (sounding .tone 7 15 started).Ready ∧ (sounding .buzzer 255 0 started).Ready := by decide

theorem witness_BuzzerRequestIsQueuedOrStarted : (0x07010000 : Word).toNat / 2 ^ 24 = 0x07 ∧ State.reset.Ready
    ∧ State.reset.ctl.running = false ∧ started.Ready ∧ started.ctl.running = true
    ∧ (sounding .buzzer 1 0 started).Ready ∧ (sounding .beep 1 0 started).Ready := by decide

/-- Every case of the boundary. -/
theorem witness_AcousticBoundaryPromotesRepeatsOrEnds : (waiting 1 0 (sounding .beep 1 0 started)).Ready
    ∧ (sounding .tone 1 1 started).Ready ∧ (sounding .buzzer 1 0 started).Ready := by decide

theorem witness_BeepGivesExactlyItsAssertions : started.Inv ∧ started.ctl.running = true ∧ started.ac.acType = .none
    ∧ started.enc.txWindow = false ∧ (1 : Byte) ≠ 0 ∧ (129 : Byte) ≠ 0 := ⟨started_inv, by decide⟩

theorem witness_ToneNeverStopsByItself : (sounding .tone 1 1 started).Ready ∧ (sounding .tone 1 1 started).ac.acType = .tone
    ∧ (sounding .tone 1 1 started).ac.qValid = false := by decide

/-- Every clause of `PUSH`: the slot free and occupied, the ring with room for one more and full. -/
theorem witness_PushAcceptsOrSetsOverflow : (0x04F00000 : Word).toNat / 2 ^ 24 = 0x04
    ∧ started.Ready ∧ started.StorageCanonical ∧ started.cfg.keyClass 0xF0 = .alarm ∧ started.alm.detected = false
    ∧ (alarm true false started).Ready ∧ (alarm true false started).alm.detected = true
    ∧ started.cfg.keyClass 0x31 ≠ .alarm ∧ (full started).Ready ∧ (full started).StorageCanonical
    ∧ (full started).kbCount = (full started).cfg.kbCapacity
    ∧ (after .pop (full started)).Ready ∧ (after .pop (full started)).kbCount + 1 = started.cfg.kbCapacity := by decide

theorem witness_PopReturnsTheOldestEntry : started.Ready ∧ started.queue = [] ∧ (full started).Ready
    ∧ (full started).queue = 1 :: [2, 3, 4] := by decide

theorem witness_OverflowIsStickyAndReadable :
    let s := after (.push 5) (full started)
    (0x0B010000 : Word).toNat / 2 ^ 24 = 0x0B ∧ s.Ready ∧ s.kb.overflow = true ∧ ∃ t, exec .poll s = .next t :=
  ⟨by decide, by decide, by decide, _, rfl⟩

/-- Room for a push, a full ring, an entry to pop, an edge that pops and an operation that touches no key. -/
theorem witness_KeyBufferIsAFifo : started.Inv ∧ started.cfg.keyClass 0x31 ≠ .alarm ∧ started.kbCount < started.cfg.kbCapacity
    ∧ (full started).Inv ∧ (full started).kbCount = (full started).cfg.kbCapacity ∧ (full started).queue = 1 :: [2, 3, 4]
    ∧ started.cfg.keyClass 0xF0 = .alarm ∧ (∃ t, exec (.clockEdge true) (full started) = .next t)
    ∧ ∃ t, exec .poll (full started) = .next t :=
  ⟨started_inv, by decide, by decide, full_inv, by decide, by decide, by decide, ⟨_, rfl⟩, _, rfl⟩

theorem witness_CapacityPlusOnePushesOverflow : started.Inv ∧ started.kbCount = 0 ∧ started.kb.overflow = false
    ∧ [1, 2, 0, 0xFF].length = started.cfg.kbCapacity
    ∧ ∀ code ∈ ([5, 1, 2, 0, 0xFF] : List Byte), started.cfg.keyClass code ≠ .alarm := ⟨started_inv, by decide⟩

theorem witness_PollWithNothingReady : started.Ready ∧ started.smp.frameReady = false := by decide

/-- A key and none, a routed command and none. -/
theorem witness_PollConsumesTheReadyFrame : (0x03000000 : Word).toNat / 2 ^ 24 = 0x03
    ∧ (ready 0x11 0 0xFF 0 true started).Ready ∧ (ready 0x11 0 0xFF 0 true started).smp.frameReady = true
    ∧ (ready 0x11 0 0xFF 0 true started).smp.modFrame.b0 = started.cfg.modIdle
    ∧ started.cfg.lightRoute 0x11 = .none ∧ started.cfg.lightRoute 0x05 ≠ .none
    ∧ (ready 0x05 0 0x2B 0 true started).Ready
    ∧ (ready 0x05 0 0x2B 0 true started).smp.modFrame.b0 ≠ started.cfg.modIdle := by decide

/-- In and after the start-up cycle, each of the four registers, a pair of bits that changes and one that does not. -/
theorem witness_PollRecomputesTheRoutedGroup : (ready 0x05 1 0xFF 0 true started).Ready
    ∧ (ready 0x05 1 0xFF 0 true started).smp.frameReady = true ∧ (ready 0x05 1 0xFF 0 true started).itp.startup = true
    ∧ (ready 0x05 1 0xFF 0 false started).Ready ∧ (ready 0x05 1 0xFF 0 false started).itp.startup = false
    ∧ started.cfg.lightRoute 0x05 = .status ∧ started.cfg.lightRoute 0x06 = .statusBlink
    ∧ started.cfg.lightRoute 0x07 = .zone ∧ started.cfg.lightRoute 0x08 = .zoneBlink
    ∧ (after .poll (ready 0x05 1 0xFF 0 false started)).itp.st.b0.getLsbD 0 ≠ started.itp.st.b0.getLsbD 0
    ∧ (after .poll (ready 0x05 1 0xFF 0 false started)).itp.st.b0.getLsbD 7 = started.itp.st.b0.getLsbD 7 := by decide

theorem witness_SecondIdenticalFrameChangesNoLight : (ready 0x05 1 0xFF 0 false started).Ready
    ∧ (ready 0x05 1 0xFF 0 false started).smp.frameReady = true := by decide

theorem witness_ReadyLightFromReset : Config.ref.valid = true ∧ (2000 : BitVec 24).toNat ≤ Config.ref.silenceWindowUs := by
  decide

theorem witness_FrameReadReturnsTheFourBytes : started.Ready ∧ (0x0A000000 : Word).toNat / 2 ^ 24 = 0x0A := by decide

theorem witness_KeyReadReturnsFlagAndValue : started.Ready ∧ (0x08000000 : Word).toNat / 2 ^ 24 = 0x08 := by decide

theorem witness_KeyClearKeepsTheValue : started.Ready ∧ (0x09000000 : Word).toNat / 2 ^ 24 = 0x09 := by decide

theorem witness_IndicatorReadReturnsStateAndChange : started.Ready ∧ (0x0C0F0000 : Word).toNat / 2 ^ 24 = 0x0C := by decide

theorem witness_StepKeepsTheInvariant : { started with inputs := [0x80010000] }.Inv
    ∧ ∃ t, step { started with inputs := [0x80010000] } = .next t := ⟨started_inv, _, rfl⟩

theorem witness_StepNeverStopsUnderTheInvariant : (full started).Inv := full_inv

theorem witness_OperationsKeepTheStorageCanonical : started.StorageCanonical ∧ ∃ t, exec (.push 0x31) started = .next t :=
  ⟨by decide, _, rfl⟩

theorem witness_StepKeepsTheCursorsAligned :
    let s := { atCycle 31 started with inputs := [0x80010000] }
    s.CursorsAgree ∧ ∃ t, step s = .next t := ⟨by decide, _, rfl⟩

/-- An operation of each context, with the flag of each clause. -/
theorem witness_ContextsWriteOnlyTheirOwnState : Instr.agent (.push 0x31) = .host
    ∧ (∃ t, exec (.push 0x31) (alarm true false started) = .next t) ∧ (alarm true false started).alm.detected = true
    ∧ started.smp.frameReady = false ∧ Instr.agent (.clockEdge true) ≠ .host
    ∧ (∃ t, exec (.clockEdge true) (ready 1 2 3 4 true started) = .next t)
    ∧ (ready 1 2 3 4 true started).smp.frameReady = true ∧ started.alm.detected = false :=
  ⟨by decide, ⟨_, rfl⟩, by decide, by decide, by decide, ⟨_, rfl⟩, by decide, by decide⟩

end Sys2Proof.Tests
end

/-! PROOFS. Scope (00_scope): when an operation has a meaning. -/

namespace Sys2Proof

/-- The check of a configuration is the list of constraints of 00_scope R7. -/
theorem Config.valid_iff {c : Config} : c.valid = true ↔
    1 ≤ c.kbCapacity ∧ c.kbCapacity ≤ 127
      ∧ 1 ≤ c.silenceWindowUs ∧ c.silenceWindowUs < 2 ^ 31
      ∧ 1 ≤ c.timeUnitUs ∧ 255 * c.timeUnitUs + c.beepGapUs < 2 ^ 31
      ∧ 7 * c.beepOnUs + 6 * c.beepGapUs ≤ c.timeUnitUs
      ∧ 1 ≤ c.beepOnUs ∧ 128 * (c.beepOnUs + c.beepGapUs) < 2 ^ 31
      ∧ 1 ≤ c.beepGapUs ∧ c.lightRoute 0x05 = .status
      ∧ c.longHoldUs < 2 ^ 31 ∧ c.alarmMinHoldUs < 2 ^ 31 ∧ c.alarmReissueUs < 2 ^ 31 := by
  simp only [Config.valid, Bool.and_eq_true, decide_eq_true_eq, and_assoc]

end Sys2Proof

namespace Sys2Proof.Machine

/-- Every operation, internal ones included, runs through `operate`: its effect is fixed by the operation alone, and
`operate` decides whether it has a meaning (00_scope R6, R8, U15). -/
theorem exec_eq_operate (i : Instr) : ∃ op : State → State × Word, ∀ s, exec i s = operate s op := by
  cases i <;> exact ⟨_, fun _ => rfl⟩

/-- No operation has a meaning under an invalid configuration (00_scope R8). -/
theorem exec_invalid (i : Instr) {s : State} (hv : s.cfg.valid = false) :
    exec i s = .refused .invalidConfiguration := by
  obtain ⟨op, hop⟩ := exec_eq_operate i
  rw [hop, operate_invalid hv]

/-- Settles O6: a broken constraint fails the check of the configuration, which every operation makes first. -/
theorem brokenConfigurationIsRefused : Obligations.BrokenConfigurationIsRefused := by
  intro i s hbroken
  have hv : s.cfg.valid = false := Bool.eq_false_iff.2 (mt Config.valid_iff.1 hbroken)
  exact exec_invalid i hv

end Sys2Proof.Machine

/-! PROOFS. State (10_state): the effect of each operation, the canonical Key Buffer storage and the cursors. -/

namespace Sys2Proof.Machine

/-! ### The effect of an operation -/

/-- What `operate` runs for each operation: the next state and the result word `R` (30_encoding R104). -/
def effectOf : Instr → State → State × Word
  | .initialise clockPin readPin writePin => silent (initialiseBlock clockPin readPin writePin)
  | .start trace => silent (startBlock trace)
  | .poll => pollFrame
  | .push code => silent (pushKey code)
  | .reqBeep count => silent (acRequest (beepRequest count))
  | .reqTone count continuous interval => silent (acRequest (toneRequest count continuous interval))
  | .reqBuzzer duration => silent (acRequest (buzzerRequest duration))
  | .keyRead => readKey
  | .keyClear => silent clearKey
  | .frameRead => readFrame
  | .ovfRead clear => readOverflow clear
  | .indRead index => readIndicator index
  | .clockEdge data => silent (clockEdge data)
  | .advance dt => silent (advanceTime dt)
  | .silenceTimeout => silent fireSilenceTimeout
  | .acousticBoundary => silent fireAcousticBoundary
  | .frameComplete => silent fireFrameComplete
  | .pop => silent popKey

theorem exec_eq_operate_effectOf (i : Instr) (s : State) : exec i s = operate s (effectOf i) := by
  cases i <;> rfl

/-- An operation completes in a ready state only, and then answers its effect on the state with an empty log. -/
theorem exec_eq_next {i : Instr} {s t : State} :
    exec i s = .next t ↔ s.cfg.valid = true ∧ s.formed = true ∧ t = finish (effectOf i (s.withFired [])) := by
  rw [exec_eq_operate_effectOf, operate_eq_next]

@[simp] theorem silent_fst (op : State → State) (s : State) : (silent op s).1 = op s := rfl

@[simp] theorem readKey_fst (s : State) : (readKey s).1 = s := rfl

@[simp] theorem readFrame_fst (s : State) : (readFrame s).1 = s := rfl

@[simp] theorem readIndicator_fst (index : BitVec 4) (s : State) : (readIndicator index s).1 = s := rfl

@[simp] theorem readOverflow_fst (clear : Bool) (s : State) : (readOverflow clear s).1 = clearOverflow clear s := rfl

theorem pollFrame_fst (s : State) : (pollFrame s).1 = if s.smp.frameReady then consumeFrame s else s := by
  unfold pollFrame; split <;> rfl

@[simp] theorem pollFrame_cfg (s : State) : (pollFrame s).1.cfg = s.cfg := by
  rw [pollFrame_fst]; split <;> rfl

@[simp] theorem pollFrame_kb (s : State) : (pollFrame s).1.kb = s.kb := by
  rw [pollFrame_fst]; split <;> rfl

@[simp] theorem initialiseBlock_cfg (clockPin readPin writePin : Byte) (s : State) :
    (initialiseBlock clockPin readPin writePin s).cfg = s.cfg := rfl

/-- No operation writes the configuration (20_memory R83). -/
@[simp] theorem effectOf_cfg (i : Instr) (s : State) : (effectOf i s).1.cfg = s.cfg := by
  cases i <;> simp [effectOf]

/-! ### The storage of the Key Buffer -/

/-- The cells of `KB_MEM` are not touched by a pop: only the read pointer moves (43_key_buffer R222). -/
@[simp] theorem popKey_mem (s : State) : (popKey s).kb.mem = s.kb.mem := by
  unfold popKey; split <;> rfl

@[simp] theorem clearOverflow_mem (clear : Bool) (s : State) : (clearOverflow clear s).kb.mem = s.kb.mem := by
  unfold clearOverflow; split <;> rfl

@[simp] theorem pushAlarm_mem (code : Byte) (s : State) : (pushAlarm code s).kb.mem = s.kb.mem := by
  unfold pushAlarm; split <;> rfl

/-- The ring half of `PUSH` writes one cell unless the ring is full (43_key_buffer R221). -/
theorem pushRing_mem (code : Byte) (s : State) : (pushRing code s).kb.mem =
    if s.kbFull then s.kb.mem else s.kb.mem.write (s.kb.wr.toNat % s.cfg.kbCapacity) code := by
  unfold pushRing; split <;> rfl

@[simp] theorem retireKey_mem (s : State) : (retireKey s).kb.mem = s.kb.mem := by
  unfold retireKey
  split
  · exact popKey_mem s
  · split <;> rfl

@[simp] theorem closeWindow_mem (s : State) : (closeWindow s).kb.mem = s.kb.mem := retireKey_mem s

@[simp] theorem encEven_mem (s : State) : (encEven s).kb.mem = s.kb.mem := by
  unfold encEven; split <;> simp

@[simp] theorem clockEdge_mem (data : Bool) (s : State) : (clockEdge data s).kb.mem = s.kb.mem := by
  unfold clockEdge
  split
  · dsimp only
    split <;> simp
  · rfl

/-- Only `PUSH` and `INITIALIZE` write the cells of `KB_MEM` (10_state R28, 43_key_buffer R221). -/
theorem effectOf_mem {i : Instr} (hinit : ∀ a b c, i ≠ .initialise a b c) (hpush : ∀ code, i ≠ .push code) (s : State) :
    (effectOf i s).1.kb.mem = s.kb.mem := by
  cases i with
  | initialise a b c => exact absurd rfl (hinit a b c)
  | push code => exact absurd rfl (hpush code)
  | _ => simp [effectOf]

/-- The storage form reads the cells and the capacity only. -/
theorem storageCanonical_of_eq {s t : State} (hcfg : t.cfg = s.cfg) (hmem : t.kb.mem = s.kb.mem)
    (h : s.StorageCanonical) : t.StorageCanonical := by
  rwa [State.StorageCanonical, hcfg, hmem]

/-- `PUSH` writes at an index reduced modulo the capacity, so inside `KB_MEM` (43_key_buffer R221). -/
theorem pushKey_storageCanonical (code : Byte) {s : State} (hcap : 1 ≤ s.cfg.kbCapacity) (h : s.StorageCanonical) :
    (pushKey code s).StorageCanonical := by
  unfold pushKey
  split
  · exact storageCanonical_of_eq (pushAlarm_cfg s code) (pushAlarm_mem code s) h
  · obtain ⟨hwf, hbelow⟩ := h
    have hindex : s.kb.wr.toNat % s.cfg.kbCapacity < s.cfg.kbCapacity := Nat.mod_lt _ hcap
    rw [State.StorageCanonical, pushRing_cfg, pushRing_mem]
    split
    · exact ⟨hwf, hbelow⟩
    · exact ⟨Memory.write_wf _ _ _ hwf, Memory.write_below _ hindex hbelow⟩

theorem effectOf_storageCanonical (i : Instr) {s : State} (hcap : 1 ≤ s.cfg.kbCapacity) (h : s.StorageCanonical) :
    (effectOf i s).1.StorageCanonical := by
  cases i with
  | initialise a b c => exact ⟨rfl, rfl⟩
  | push code => exact pushKey_storageCanonical code hcap h
  | _ => exact storageCanonical_of_eq (effectOf_cfg _ s) (effectOf_mem (by simp) (by simp) s) h

/-- Settles O57: `INITIALIZE` empties the storage, `PUSH` writes one cell inside it, no other operation writes a cell. -/
theorem operationsKeepTheStorageCanonical : Obligations.OperationsKeepTheStorageCanonical := by
  intro i s t hs hexec
  obtain ⟨hvalid, -, rfl⟩ := exec_eq_next.1 hexec
  exact effectOf_storageCanonical i (s := s.withFired []) (Config.valid_iff.1 hvalid).1 hs

/-! ### The cursors -/

/-- The cursor relation reads the sampler only. -/
theorem cursorsAgree_of_smp_eq {s t : State} (hsmp : t.smp = s.smp) (h : s.CursorsAgree) : t.CursorsAgree := by
  rwa [State.CursorsAgree, hsmp]

theorem cursorsAgree_of_zero {s : State} (hexp : s.smp.expBits = 16#5) (hcyc : s.smp.cyc = 0#5)
    (hbit : s.smp.bitCnt = 0#5) (hbyte : s.smp.byteIdx = 0#1) : s.CursorsAgree := by
  simp [State.CursorsAgree, hexp, hcyc, hbit, hbyte]

/-- A silence timeout zeroes all three cursors together (40_bus_sampler R138). -/
theorem cursorsAgree_of_smp_eq_realign {s t : State} (hsmp : t.smp = s.smp.realign) (h : s.CursorsAgree) :
    t.CursorsAgree :=
  cursorsAgree_of_zero (by rw [hsmp]; exact h.1) (by rw [hsmp]; rfl) (by rw [hsmp]; rfl) (by rw [hsmp]; rfl)

theorem startBlock_cursorsAgree (trace : Bool) {s : State} (h : s.CursorsAgree) :
    (startBlock trace s).CursorsAgree := by
  unfold startBlock; split <;> exact h

theorem pollFrame_cursorsAgree {s : State} (h : s.CursorsAgree) : (pollFrame s).1.CursorsAgree := by
  rw [pollFrame_fst]; split <;> exact h

/-- An edge does nothing while the block is not running (40_bus_sampler R142). -/
theorem clockEdge_idle (data : Bool) {s : State} (hrun : s.ctl.running = false) : clockEdge data s = s := by
  simp [clockEdge, hrun]

/-- The edge of a panel window, at even `CYC` (40_bus_sampler R131). -/
theorem clockEdge_panel (data : Bool) {s : State} (hrun : s.ctl.running = true) (heven : s.smp.cyc.toNat % 2 = 0) :
    clockEdge data s = samplePanel data (encEven (stampEdge s)) := by
  have hbit : s.smp.cyc.getLsbD 0 = false := by rw [cycle_parity, heven]; rfl
  rw [clockEdge, if_pos hrun]
  exact if_pos hbit

/-- The edge of a module window, at odd `CYC` (40_bus_sampler R131). -/
theorem clockEdge_module (data : Bool) {s : State} (hrun : s.ctl.running = true) (hodd : s.smp.cyc.toNat % 2 = 1) :
    clockEdge data s = nextCycle (completeFrame (sampleModule data (encOdd (stampEdge s)))) := by
  have hbit : ¬ s.smp.cyc.getLsbD 0 = false := by rw [cycle_parity, hodd]; decide
  rw [clockEdge, if_pos hrun]
  exact if_neg hbit

/-- At even `CYC` the next `CYC` has the same half, so the other cursors stay (40_bus_sampler R131). -/
theorem samplePanel_cursorsAgree (data : Bool) {s : State} (heven : s.smp.cyc.toNat % 2 = 0) (h : s.CursorsAgree) :
    (samplePanel data s).CursorsAgree := by
  obtain ⟨hexp, hbit, hbyte⟩ := h
  refine ⟨hexp, ?_, hbyte⟩
  show s.smp.bitCnt.toNat = (s.smp.cyc + 1#5).toNat / 2
  have := s.smp.cyc.isLt
  simp only [BitVec.toNat_add, BitVec.toNat_ofNat]
  omega

/-- `FRAME_COMPLETE` hands the frame over and zeroes the bit and byte cursors (40_bus_sampler R135). -/
theorem fireFrameComplete_smp (s : State) :
    (fireFrameComplete s).smp = { s.smp.capture with bitCnt := 0#5, byteIdx := 0#1 } := by
  simp [fireFrameComplete]

/-- The bit cursor after the sample of a module window, as a number: it does not wrap. -/
theorem sampleModule_bitCnt_toNat (data : Bool) {s : State} (h : s.CursorsAgree) :
    (sampleModule data s).smp.bitCnt.toNat = s.smp.bitCnt.toNat + 1 := by
  have hbit : s.smp.bitCnt.toNat = s.smp.cyc.toNat / 2 := h.2.1
  have := s.smp.cyc.isLt
  show (s.smp.bitCnt + 1#5).toNat = _
  simp only [BitVec.toNat_add, BitVec.toNat_ofNat]
  omega

/-- The byte cursor moves on at a byte boundary, modulo 2 (40_bus_sampler R131). -/
theorem sampleModule_byteIdx_toNat (data : Bool) {s : State} (h : s.CursorsAgree) :
    (sampleModule data s).smp.byteIdx.toNat = (s.smp.bitCnt.toNat + 1) / 8 % 2 := by
  have hbyte : s.smp.byteIdx.toNat = s.smp.bitCnt.toNat / 8 := h.2.2
  have hbits : (s.smp.bitCnt + 1#5).toNat = s.smp.bitCnt.toNat + 1 := sampleModule_bitCnt_toNat data h
  have := s.smp.byteIdx.isLt
  show (if (s.smp.bitCnt + 1#5).toNat % 8 = 0 then s.smp.byteIdx + 1#1 else s.smp.byteIdx).toNat = _
  rw [hbits]
  split
  · simp only [BitVec.toNat_add, BitVec.toNat_ofNat]
    omega
  · omega

/-- At odd `CYC` the bit cursor moves on with it; the completion of the frame, at `CYC = 31`, brings all three cursors back
to zero (40_bus_sampler R131, R135). -/
theorem moduleEdge_cursorsAgree (data : Bool) {s : State} (hodd : s.smp.cyc.toNat % 2 = 1) (h : s.CursorsAgree) :
    (nextCycle (completeFrame (sampleModule data s))).CursorsAgree := by
  have hbits := sampleModule_bitCnt_toNat data h
  have hbyte := sampleModule_byteIdx_toNat data h
  obtain ⟨hexp, hbit, -⟩ := h
  have hexp' : (sampleModule data s).smp.expBits = 16#5 := hexp
  have hcyc := s.smp.cyc.isLt
  by_cases hlast : (sampleModule data s).smp.bitCnt = (sampleModule data s).smp.expBits
  · have h16 : s.smp.bitCnt.toNat + 1 = 16 := by rw [← hbits, hlast, hexp']; rfl
    have hwrap : s.smp.cyc + 1#5 = 0#5 := BitVec.eq_of_toNat_eq (by
      simp only [BitVec.toNat_add, BitVec.toNat_ofNat]
      omega)
    rw [completeFrame, if_pos hlast, nextCycle, fireFrameComplete_smp]
    exact cursorsAgree_of_zero hexp hwrap rfl rfl
  · have h16 : s.smp.bitCnt.toNat + 1 ≠ 16 := fun h16 =>
      hlast (BitVec.eq_of_toNat_eq (by rw [hbits, h16, hexp']; rfl))
    rw [completeFrame, if_neg hlast]
    refine ⟨hexp, ?_, ?_⟩
    · show (sampleModule data s).smp.bitCnt.toNat = (s.smp.cyc + 1#5).toNat / 2
      rw [hbits]
      simp only [BitVec.toNat_add, BitVec.toNat_ofNat]
      omega
    · show (sampleModule data s).smp.byteIdx.toNat = (sampleModule data s).smp.bitCnt.toNat / 8
      rw [hbits, hbyte]
      omega

theorem clockEdge_cursorsAgree (data : Bool) {s : State} (h : s.CursorsAgree) : (clockEdge data s).CursorsAgree := by
  cases hrun : s.ctl.running with
  | false => rwa [clockEdge_idle data hrun]
  | true =>
    have hstamp : (stampEdge s).CursorsAgree := h
    rcases Nat.mod_two_eq_zero_or_one s.smp.cyc.toNat with heven | hodd
    · rw [clockEdge_panel data hrun heven]
      exact samplePanel_cursorsAgree data (by rwa [encEven_smp]) (cursorsAgree_of_smp_eq (encEven_smp _) hstamp)
    · rw [clockEdge_module data hrun hodd]
      exact moduleEdge_cursorsAgree data (by rwa [encOdd_smp]) (cursorsAgree_of_smp_eq (encOdd_smp _) hstamp)

/-- A turn of the loop of `ADVANCE` leaves the sampler or realigns it (40_bus_sampler R140). -/
theorem fireDue_cursorsAgree (a b : Option Nat) (r : Nat) {s : State} (h : s.CursorsAgree) :
    (fireDue a b r s).CursorsAgree := by
  have hsmp := fireDue_smp a b r s
  split at hsmp
  · exact cursorsAgree_of_smp_eq_realign hsmp h
  · exact cursorsAgree_of_smp_eq hsmp h

theorem advanceLoop_cursorsAgree : ∀ (fuel rem : Nat) {s : State}, s.CursorsAgree →
    (advanceLoop fuel rem s).CursorsAgree
  | 0, _, _, h => h
  | fuel + 1, rem, s, h => by
    rw [advanceLoop]
    split
    · exact h
    · split
      · exact h
      · exact advanceLoop_cursorsAgree fuel _ (fireDue_cursorsAgree _ _ _ h)

/-- Only a `FRAME_COMPLETE` on its own, which the block never fires but at the end of a frame, could part the bit cursor
from `CYC`. -/
theorem effectOf_cursorsAgree {i : Instr} (hi : i ≠ .frameComplete) {s : State} (h : s.CursorsAgree) :
    (effectOf i s).1.CursorsAgree := by
  cases i with
  | initialise a b c => exact cursorsAgree_of_zero rfl rfl rfl rfl
  | start trace => exact startBlock_cursorsAgree trace h
  | poll => exact pollFrame_cursorsAgree h
  | clockEdge data => exact clockEdge_cursorsAgree data h
  | advance dt => exact advanceLoop_cursorsAgree _ _ h
  | silenceTimeout => exact cursorsAgree_of_smp_eq_realign (s := s) rfl h
  | frameComplete => exact absurd rfl hi
  | _ => exact cursorsAgree_of_smp_eq (by simp [effectOf]) h

/-! ### One step -/

/-- A stimulus word never stands for an internal operation (30_encoding R106, R107). -/
theorem wellFormed_of_decodeStimulus {w : Word} {i : Instr} (h : decodeStimulus w = .ok i) : i.wellFormed = true := by
  unfold decodeStimulus at h
  split at h
  · split at h
    · cases h; assumption
    · cases h
  · cases h

/-- A step that answers a next state idles, takes a reserved word, or takes a word of an injectable operation and runs
it (30_encoding R107, log 3). -/
theorem step_cases {s t : State} (h : step s = .next t) :
    (s.nextWord = none ∧ t = s)
      ∨ (∃ w r, s.nextWord = some w ∧ decodeStimulus w = .error r ∧ reservedWord s.dropWord = .next t)
      ∨ ∃ w i, s.nextWord = some w ∧ decodeStimulus w = .ok i ∧ exec i s.dropWord = .next t := by
  unfold step at h
  cases hw : s.nextWord with
  | none =>
    rw [hw] at h
    cases h
    exact .inl ⟨rfl, rfl⟩
  | some w =>
    rw [hw] at h
    dsimp only at h
    cases hd : decodeStimulus w with
    | error r =>
      rw [hd] at h
      exact .inr (.inl ⟨w, r, rfl, hd, h⟩)
    | ok i =>
      rw [hd] at h
      exact .inr (.inr ⟨w, i, rfl, hd, h⟩)

/-- A reserved word leaves the block as it is (30_encoding R107). -/
theorem reservedWord_eq_next {s t : State} (h : reservedWord s = .next t) : t = (s.withFired []).withResult 0 :=
  (operate_eq_next.1 h).2.2

/-- Settles O58: `FRAME_COMPLETE` is no stimulus, and every other operation keeps the cursors in step. -/
theorem stepKeepsTheCursorsAligned : Obligations.StepKeepsTheCursorsAligned := by
  intro s t hs hstep
  rcases step_cases hstep with ⟨-, rfl⟩ | ⟨w, r, -, -, hres⟩ | ⟨w, i, -, hdec, hexec⟩
  · exact hs
  · rw [reservedWord_eq_next hres]
    exact hs
  · have hi : i ≠ .frameComplete := by
      rintro rfl
      exact absurd (wellFormed_of_decodeStimulus hdec) (by decide)
    obtain ⟨-, -, rfl⟩ := exec_eq_next.1 hexec
    exact effectOf_cursorsAgree hi (s := s.dropWord.withFired []) hs

end Sys2Proof.Machine

/-! PROOFS. Memory (20_memory): what the shift registers hold after any number of edges of a frame cycle, and the hand-off of
the four bytes. -/

namespace Sys2Proof.Machine

open Sys2Proof.Statements

/-! ### Ready states -/

/-- An operation completes exactly in the ready states, and answers its effect on the state with an empty log. -/
theorem completes_iff {i : Instr} {s : State} {post : State → Prop} :
    Completes i s post ↔ s.Ready ∧ post (finish (effectOf i (s.withFired []))) := by
  constructor
  · rintro ⟨t, hexec, hpost⟩
    obtain ⟨hvalid, hformed, rfl⟩ := exec_eq_next.1 hexec
    exact ⟨⟨hvalid, hformed⟩, hpost⟩
  · rintro ⟨⟨hvalid, hformed⟩, hpost⟩
    exact ⟨_, exec_eq_next.2 ⟨hvalid, hformed, rfl⟩, hpost⟩

/-- The ring pointers are in range and the ring is not overfull (10_state R28). -/
def State.PointersInRange (s : State) : Prop :=
  s.kb.wr.toNat < 2 * s.cfg.kbCapacity ∧ s.kb.rd.toNat < 2 * s.cfg.kbCapacity ∧ s.kbCount ≤ s.cfg.kbCapacity

theorem State.formed_iff {s : State} :
    s.formed = true ↔ s.smp.bitCnt.toNat ≤ 16 ∧ s.PointersInRange ∧ s.ac.formed = true := by
  simp only [State.formed, State.PointersInRange, Bool.and_eq_true, decide_eq_true_eq, and_assoc]

/-- The ranges of the pointers read the Key Buffer and the configuration only. -/
theorem pointersInRange_of_eq {s t : State} (hcfg : t.cfg = s.cfg) (hkb : t.kb = s.kb) (h : s.PointersInRange) :
    t.PointersInRange := by
  rwa [State.PointersInRange, State.kbCount, hcfg, hkb]

/-- Agreeing cursors keep `BIT_CNT` below its limit (10_state R24). -/
theorem bitCnt_le_of_cursorsAgree {s : State} (h : s.CursorsAgree) : s.smp.bitCnt.toNat ≤ 16 := by
  obtain ⟨-, hbit, -⟩ := h
  have := s.smp.cyc.isLt
  omega

/-- Registers that hold legal requests hold none of length zero (10_state R29, U15). -/
theorem formed_of_requests {s : State} (hreq : s.RequestHolds) (hwait : s.WaitingHolds) : s.ac.formed = true := by
  obtain ⟨-, hreq⟩ := hreq
  obtain ⟨hwait, -⟩ := hwait
  unfold Acoustic.formed
  cases hty : s.ac.acType with
  | none => rfl
  | _ => cases hq : s.ac.qValid <;> simp_all

/-- The invariant leaves no encoding that never occurs (U15). -/
theorem State.Inv.ready {s : State} (h : s.Inv) : s.Ready := by
  obtain ⟨hvalid, hcur, -, ⟨hwr, hrd, hcount, -⟩, hreq, hwait, -⟩ := h
  exact ⟨hvalid, State.formed_iff.2
    ⟨bitCnt_le_of_cursorsAgree hcur, ⟨hwr, hrd, hcount⟩, formed_of_requests hreq hwait⟩⟩

/-- A pointer moved on wraps at twice the capacity (43_key_buffer R222). -/
theorem nextPointer_cases {p : Byte} {capacity : Nat} (hcap : capacity ≤ 127) (hp : p.toNat < 2 * capacity) :
    (p.toNat + 1 = 2 * capacity ∧ (nextPointer p capacity).toNat = 0)
      ∨ (p.toNat + 1 < 2 * capacity ∧ (nextPointer p capacity).toNat = p.toNat + 1) := by
  rw [nextPointer, BitVec.toNat_ofNat]
  have hle : p.toNat + 1 ≤ 2 * capacity := hp
  rcases hle.lt_or_eq with hlt | hwrap
  · rw [Nat.mod_eq_of_lt hlt, Nat.mod_eq_of_lt (by omega)]
    exact .inr ⟨hlt, rfl⟩
  · refine .inl ⟨hwrap, ?_⟩
    rw [hwrap, Nat.mod_self]

/-- `kb_count` of pointers in range is their distance, the write pointer having wrapped once more or not (10_state R28). -/
theorem KeyBuffer.count_cases {k : KeyBuffer} {capacity : Nat} (hwr : k.wr.toNat < 2 * capacity)
    (hrd : k.rd.toNat < 2 * capacity) :
    (k.rd.toNat ≤ k.wr.toNat ∧ k.count capacity + k.rd.toNat = k.wr.toNat)
      ∨ (k.wr.toNat < k.rd.toNat ∧ k.count capacity + k.rd.toNat = k.wr.toNat + 2 * capacity) := by
  rw [KeyBuffer.count]
  rcases Nat.lt_or_ge k.wr.toNat k.rd.toNat with hlt | hle
  · rw [Nat.mod_eq_of_lt (by omega)]
    omega
  · rw [show k.wr.toNat + 2 * capacity - k.rd.toNat = k.wr.toNat - k.rd.toNat + 2 * capacity by omega,
      Nat.add_mod_right, Nat.mod_eq_of_lt (by omega)]
    omega

/-- The Key Buffer after a pop: the read pointer has moved on unless the ring was empty (43_key_buffer R222). -/
theorem popKey_kb (s : State) : (popKey s).kb =
    if s.kbCount = 0 then s.kb else { s.kb with rd := nextPointer s.kb.rd s.cfg.kbCapacity } := by
  unfold popKey; split <;> rfl

/-- A pop reads and writes the Key Buffer only, but for the log. -/
theorem popKey_kb_of_eq {s t : State} (hcfg : t.cfg = s.cfg) (hkb : t.kb = s.kb) : (popKey t).kb = (popKey s).kb := by
  rw [popKey_kb, popKey_kb, State.kbCount, State.kbCount, hcfg, hkb]

/-- The read pointer moved on leaves one entry less (43_key_buffer R222). -/
theorem KeyBuffer.count_nextPointer_rd {k : KeyBuffer} {capacity : Nat} (hcap : capacity ≤ 127)
    (hwr : k.wr.toNat < 2 * capacity) (hrd : k.rd.toNat < 2 * capacity) (hne : k.count capacity ≠ 0) :
    KeyBuffer.count { k with rd := nextPointer k.rd capacity } capacity + 1 = k.count capacity := by
  have hnext := nextPointer_cases hcap hrd
  have hrd' : (nextPointer k.rd capacity).toNat < 2 * capacity := by omega
  have hold := KeyBuffer.count_cases hwr hrd
  have hnew := KeyBuffer.count_cases (k := { k with rd := nextPointer k.rd capacity }) hwr hrd'
  dsimp only at hnew ⊢
  omega

/-- A pop keeps the pointers in range and the ring within its capacity (43_key_buffer R222). -/
theorem popKey_pointersInRange {s : State} (hv : s.cfg.valid = true) (h : s.PointersInRange) :
    (popKey s).PointersInRange := by
  obtain ⟨hwr, hrd, hcount⟩ := h
  obtain ⟨-, hcap, -⟩ := Config.valid_iff.1 hv
  rw [State.PointersInRange, State.kbCount, popKey_cfg, popKey_kb]
  split
  · exact ⟨hwr, hrd, hcount⟩
  · next hne =>
    have hnext := nextPointer_cases hcap hrd
    have hrd' : (nextPointer s.kb.rd s.cfg.kbCapacity).toNat < 2 * s.cfg.kbCapacity := by omega
    have hless := KeyBuffer.count_nextPointer_rd hcap hwr hrd hne
    exact ⟨hwr, hrd', (Nat.le_succ _).trans (hless.trans_le hcount)⟩

/-- Only a buffered key whose hold is met is popped (41_key_encoder R165). -/
theorem retireKey_kb (s : State) : (retireKey s).kb = s.kb ∨ (retireKey s).kb = (popKey s).kb := by
  unfold retireKey
  split
  · exact .inr rfl
  · split <;> exact .inl rfl

/-- An edge of a panel window leaves the Key Buffer alone or pops its oldest entry (41_key_encoder R164, R165). -/
theorem encEven_kb (s : State) : (encEven s).kb = s.kb ∨ (encEven s).kb = (popKey s).kb := by
  unfold encEven
  split
  · exact (retireKey_kb (releaseKey s)).imp_right fun h => h.trans (popKey_kb_of_eq rfl rfl)
  · exact .inl rfl

/-- An edge leaves the Key Buffer alone or pops its oldest entry (41_key_encoder R161, R165). -/
theorem clockEdge_kb (data : Bool) (s : State) :
    (clockEdge data s).kb = s.kb ∨ (clockEdge data s).kb = (popKey s).kb := by
  cases hrun : s.ctl.running with
  | false => exact .inl (by rw [clockEdge_idle data hrun])
  | true =>
    rcases Nat.mod_two_eq_zero_or_one s.smp.cyc.toNat with heven | hodd
    · rw [clockEdge_panel data hrun heven]
      exact (encEven_kb (stampEdge s)).imp_right fun h => h.trans (popKey_kb_of_eq rfl rfl)
    · exact .inl (by simp [clockEdge_module data hrun hodd])

/-- The one thing an edge could upset is the ring, and it pops at most one entry. -/
theorem clockEdge_ready (data : Bool) {s : State} (hcur : s.CursorsAgree) (h : s.Ready) :
    (clockEdge data s).Ready := by
  obtain ⟨hvalid, hformed⟩ := h
  obtain ⟨-, hring, hac⟩ := State.formed_iff.1 hformed
  have hring' : (clockEdge data s).PointersInRange := by
    rcases clockEdge_kb data s with hkb | hkb
    · exact pointersInRange_of_eq (clockEdge_cfg s data) hkb hring
    · exact pointersInRange_of_eq (s := popKey s) (by simp) hkb (popKey_pointersInRange hvalid hring)
  refine ⟨by rwa [clockEdge_cfg], State.formed_iff.2 ⟨?_, hring', by rwa [clockEdge_ac]⟩⟩
  exact bitCnt_le_of_cursorsAgree (clockEdge_cursorsAgree data hcur)

/-! ### Time that passes between two edges -/

/-- What the passing of time and the operations due keep, `ADVANCE` keeps (40_bus_sampler R140). -/
theorem advanceLoop_induction {P : State → Prop} (htick : ∀ s n, P s → P (s.tick n))
    (hfire : ∀ a b r s, P s → P (fireDue a b r s)) : ∀ (fuel rem : Nat) {s : State}, P s → P (advanceLoop fuel rem s)
  | 0, _, _, h => htick _ _ h
  | fuel + 1, rem, s, h => by
    rw [advanceLoop]
    split
    · exact htick _ _ h
    · split
      · exact htick _ _ h
      · exact advanceLoop_induction htick hfire fuel _ (hfire _ _ _ _ (htick _ _ h))

theorem advanceTime_running (dt : BitVec 24) (s : State) : (advanceTime dt s).ctl.running = s.ctl.running :=
  advanceLoop_induction (P := fun t => t.ctl.running = s.ctl.running) (fun _ _ h => h)
    (fun _ _ _ _ h => by rwa [fireDue_ctl]) _ _ rfl

theorem advanceTime_formed_ac (dt : BitVec 24) {s : State} (h : s.ac.formed = true) :
    (advanceTime dt s).ac.formed = true :=
  advanceLoop_induction (P := fun t => t.ac.formed = true) (fun _ _ h => h)
    (fun _ _ _ _ h => fireDue_formed _ _ _ h) _ _ h

/-- `ADVANCE` leaves the sampler alone or realigns it, once or more (40_bus_sampler R138, R140). -/
theorem advanceTime_smp (dt : BitVec 24) (s : State) :
    (advanceTime dt s).smp = s.smp ∨ (advanceTime dt s).smp = s.smp.realign :=
  advanceLoop_induction (P := fun t => t.smp = s.smp ∨ t.smp = s.smp.realign) (fun _ _ h => h)
    (fun a b r t h => by
      rw [fireDue_smp]
      split
      · exact .inr (h.elim (congrArg Sampler.realign) (congrArg Sampler.realign))
      · exact h) _ _ (.inl rfl)

/-- The countdown does not reach its end in time up to the silence window (40_bus_sampler R138, R139). -/
theorem advanceLoop_smp_of_within : ∀ (fuel rem : Nat) {s : State}, s.cfg.silenceWindowUs < 2 ^ 31 →
    s.elapsed s.smp.lastEdge + rem ≤ s.cfg.silenceWindowUs → (advanceLoop fuel rem s).smp = s.smp
  | 0, _, _, _, _ => rfl
  | fuel + 1, rem, s, hw, h => by
    rw [advanceLoop]
    split
    · rfl
    · next r hr =>
      split
      · rfl
      · next hle =>
        have hnot : s.silenceDue ≠ some r := by
          unfold State.silenceDue
          split
          · simp only [ne_eq, Option.some.injEq]
            omega
          · simp
        have hsmp : (fireDue s.silenceDue s.acousticDue r (s.tick r)).smp = s.smp := by
          rw [fireDue_smp, if_neg hnot, State.tick_smp]
        have hel := State.elapsed_tick s r s.smp.lastEdge (by omega)
        refine (advanceLoop_smp_of_within fuel _ (by simpa using hw) ?_).trans hsmp
        rw [hsmp, fireDue_cfg, State.tick_cfg, State.elapsed, fireDue_ctl]
        rw [State.elapsed] at hel
        omega

theorem advanceTime_ready (dt : BitVec 24) {s : State} (hcur : s.CursorsAgree) (h : s.Ready) :
    (advanceTime dt s).Ready := by
  obtain ⟨hvalid, hformed⟩ := h
  obtain ⟨-, hring, hac⟩ := State.formed_iff.1 hformed
  refine ⟨by rwa [advanceTime_cfg], State.formed_iff.2 ⟨?_, ?_, advanceTime_formed_ac dt hac⟩⟩
  · exact bitCnt_le_of_cursorsAgree (advanceLoop_cursorsAgree _ _ hcur)
  · exact pointersInRange_of_eq (advanceTime_cfg s dt) (advanceTime_kb s dt) hring

/-! ### The sampler after an edge -/

/-- Every element of the sampler after the edge of a panel window (40_bus_sampler R131). -/
theorem clockEdge_panel_smp (data : Bool) {s : State} (hrun : s.ctl.running = true) (heven : s.smp.cyc.toNat % 2 = 0) :
    (clockEdge data s).smp = { stamped s with
      cmdSr := s.smp.cmdSr.set s.smp.byteIdx (shiftIn (s.smp.cmdSr.get s.smp.byteIdx) data),
      cyc := s.smp.cyc + 1#5 } := by
  have hsmp : (encEven (stampEdge s)).smp = stamped s := encEven_smp _
  rw [clockEdge_panel data hrun heven, samplePanel, State.withSmp_smp, hsmp]
  rfl

/-- Every element of the sampler after the edge of a module window that does not complete the frame (40_bus_sampler R131). -/
theorem clockEdge_module_smp (data : Bool) {s : State} (hrun : s.ctl.running = true) (hodd : s.smp.cyc.toNat % 2 = 1)
    (hmid : s.smp.bitCnt + 1#5 ≠ s.smp.expBits) :
    (clockEdge data s).smp = { stamped s with
      modSr := s.smp.modSr.set s.smp.byteIdx (shiftIn (s.smp.modSr.get s.smp.byteIdx) data),
      bitCnt := s.smp.bitCnt + 1#5,
      byteIdx := if (s.smp.bitCnt + 1#5).toNat % 8 = 0 then s.smp.byteIdx + 1#1 else s.smp.byteIdx,
      cyc := s.smp.cyc + 1#5 } := by
  have hsmp : (encOdd (stampEdge s)).smp = stamped s := encOdd_smp _
  have hkeep : ¬ (sampleModule data (encOdd (stampEdge s))).smp.bitCnt
      = (sampleModule data (encOdd (stampEdge s))).smp.expBits := by
    rwa [sampleModule, State.withSmp_smp, hsmp]
  rw [clockEdge_module data hrun hodd, completeFrame, if_neg hkeep, nextCycle, sampleModule, State.withSmp_smp,
    State.withSmp_smp, hsmp]
  rfl

/-- Every element of the sampler after the edge that completes the frame (40_bus_sampler R131, R135). -/
theorem clockEdge_last_smp (data : Bool) {s : State} (hrun : s.ctl.running = true) (hodd : s.smp.cyc.toNat % 2 = 1)
    (hlast : s.smp.bitCnt + 1#5 = s.smp.expBits) :
    (clockEdge data s).smp = { stamped s with
      modSr := s.smp.modSr.set s.smp.byteIdx (shiftIn (s.smp.modSr.get s.smp.byteIdx) data),
      cmdFrame := s.smp.cmdSr,
      modFrame := s.smp.modSr.set s.smp.byteIdx (shiftIn (s.smp.modSr.get s.smp.byteIdx) data),
      frameReady := true, bitCnt := 0#5, byteIdx := 0#1, cyc := s.smp.cyc + 1#5 } := by
  have hsmp : (encOdd (stampEdge s)).smp = stamped s := encOdd_smp _
  have hfire : (sampleModule data (encOdd (stampEdge s))).smp.bitCnt
      = (sampleModule data (encOdd (stampEdge s))).smp.expBits := by
    rwa [sampleModule, State.withSmp_smp, hsmp]
  rw [clockEdge_module data hrun hodd, completeFrame, if_pos hfire, nextCycle, State.withSmp_smp, fireFrameComplete_smp,
    sampleModule, State.withSmp_smp, hsmp]
  rfl

/-! ### The samples in the shift registers -/

/-- After `p` samples, each shifted in at the low end of byte `k div 8` (20_memory R70), sample `k` stands as many places
above bit 0 as samples have followed it in its byte. -/
def BytePair.HoldsSamples (r : BytePair) (f : Nat → Bool) (p : Nat) : Prop :=
  ∀ k < p, (r.get (BitVec.ofNat 1 (k / 8))).getLsbD (min p (8 * (k / 8 + 1)) - 1 - k) = f k

theorem BytePair.holdsSamples_zero (r : BytePair) (f : Nat → Bool) : r.HoldsSamples f 0 :=
  fun _ hk => absurd hk (Nat.not_lt_zero _)

/-- One more sample: the samples of its byte move up one place, the other byte stays (40_bus_sampler R131). -/
theorem BytePair.HoldsSamples.succ {r : BytePair} {f : Nat → Bool} {p : Nat} {i : BitVec 1} (h : r.HoldsSamples f p)
    (hi : i.toNat = p / 8) : (r.set i (shiftIn (r.get i) (f p))).HoldsSamples f (p + 1) := by
  intro k hk
  have hi2 := i.isLt
  by_cases hbyte : k / 8 = p / 8
  · have hidx : BitVec.ofNat 1 (k / 8) = i := BitVec.eq_of_toNat_eq (by
      rw [BitVec.toNat_ofNat]
      omega)
    rw [hidx, BytePair.get_set_same, shiftIn_getLsbD]
    by_cases hlast : k = p
    · rw [if_pos (by omega), hlast]
    · have hold := h k (by omega)
      rw [hidx, show min p (8 * (k / 8 + 1)) - 1 - k = min (p + 1) (8 * (k / 8 + 1)) - 1 - k - 1 by omega] at hold
      rw [if_neg (by omega), hold, decide_eq_true (by omega), Bool.true_and]
  · have hidx : i ≠ BitVec.ofNat 1 (k / 8) := by
      rintro rfl
      rw [BitVec.toNat_ofNat] at hi
      omega
    rw [BytePair.get_set_other _ _ hidx, show min (p + 1) (8 * (k / 8 + 1)) = min p (8 * (k / 8 + 1)) by omega]
    exact h k (by omega)

/-- All 16 samples: each byte holds its eight, most significant bit first (20_memory R70). -/
theorem BytePair.HoldsSamples.bytes {r : BytePair} {f : Nat → Bool} (h : r.HoldsSamples f 16) {k : Nat} (hk : k < 8) :
    r.b0.getLsbD (7 - k) = f k ∧ r.b1.getLsbD (7 - k) = f (8 + k) := by
  have h0 := h k (by omega)
  have h1 := h (8 + k) (by omega)
  rw [show k / 8 = 0 by omega, show min 16 (8 * (0 + 1)) - 1 - k = 7 - k by omega] at h0
  rw [show (8 + k) / 8 = 1 by omega, show min 16 (8 * (1 + 1)) - 1 - (8 + k) = 7 - k by omega] at h1
  exact ⟨h0, h1⟩

/-! ### The edges of a frame cycle -/

/-- The sampler after `n` edges of an aligned frame cycle with samples `d 0`, `d 1`, …: panel and module samples alternate,
and the edge that brings `CYC` round hands the four bytes over (40_bus_sampler R131, R135). -/
structure Sampler.Placed (d : Nat → Bool) (n : Nat) (p : Sampler) : Prop where
  cyc : p.cyc.toNat = n % 32
  cmdBits : p.cmdSr.HoldsSamples (fun k => d (2 * k)) ((n + 1) / 2)
  modBits : p.modSr.HoldsSamples (fun k => d (2 * k + 1)) (n / 2)
  handed : n = 32 → p.cmdFrame = p.cmdSr ∧ p.modFrame = p.modSr ∧ p.frameReady = true

/-- A running state under the configuration `c` after `n` edges of an aligned frame cycle. -/
structure EdgesTaken (c : Config) (d : Nat → Bool) (n : Nat) (s : State) : Prop where
  cfg : s.cfg = c
  ready : s.Ready
  running : s.ctl.running = true
  cursors : s.CursorsAgree
  placed : s.smp.Placed d n

/-- The last of the `n` edges, if there was one, has restarted the countdown now. -/
def EdgeIsNow (n : Nat) (s : State) : Prop := n ≠ 0 → s.smp.lastEdge = s.ctl.now ∧ s.smp.silArmed = true

theorem placed_zero (d : Nat → Bool) {p : Sampler} (h : p.cyc = 0#5) : p.Placed d 0 :=
  ⟨by rw [h]; rfl, BytePair.holdsSamples_zero _ _, BytePair.holdsSamples_zero _ _, by simp⟩

/-- An edge puts its sample where the frame cycle has come to: the panel byte at even `CYC`, the module byte at odd `CYC`
(40_bus_sampler R131). -/
theorem clockEdge_placed {c : Config} {d : Nat → Bool} {n : Nat} {s : State} (hn : n < 32) (h : EdgesTaken c d n s) :
    (clockEdge (d n) s).smp.Placed d (n + 1) := by
  obtain ⟨-, -, hrun, ⟨hexp, hbit, hbyte⟩, ⟨hcyc, hpanel, hmodule, -⟩⟩ := h
  rw [Nat.mod_eq_of_lt hn] at hcyc
  have hnext : (s.smp.cyc + 1#5).toNat = (n + 1) % 32 := by rw [BitVec.toNat_add, hcyc]; rfl
  rcases Nat.mod_two_eq_zero_or_one n with heven | hodd
  · rw [clockEdge_panel_smp _ hrun (by omega)]
    refine ⟨hnext, ?_, ?_, by omega⟩
    · have hsample := hpanel.succ (i := s.smp.byteIdx) (by omega)
      rw [show 2 * ((n + 1) / 2) = n by omega] at hsample
      rwa [show (n + 1 + 1) / 2 = (n + 1) / 2 + 1 by omega]
    · rwa [show (n + 1) / 2 = n / 2 by omega]
  · have hmodule' : (s.smp.modSr.set s.smp.byteIdx (shiftIn (s.smp.modSr.get s.smp.byteIdx) (d n))).HoldsSamples
        (fun k => d (2 * k + 1)) ((n + 1) / 2) := by
      have hsample := hmodule.succ (i := s.smp.byteIdx) (by omega)
      rw [show 2 * (n / 2) + 1 = n by omega] at hsample
      rwa [show (n + 1) / 2 = n / 2 + 1 by omega]
    have hpanel' : s.smp.cmdSr.HoldsSamples (fun k => d (2 * k)) ((n + 1 + 1) / 2) := by
      rwa [show (n + 1 + 1) / 2 = (n + 1) / 2 by omega]
    by_cases hlast : n = 31
    · have hfull : s.smp.bitCnt + 1#5 = s.smp.expBits := by
        apply BitVec.eq_of_toNat_eq
        rw [BitVec.toNat_add, hbit, hcyc, hexp, hlast]
        rfl
      rw [clockEdge_last_smp _ hrun (by omega) hfull]
      exact ⟨hnext, hpanel', hmodule', fun _ => ⟨rfl, rfl, rfl⟩⟩
    · have hmid : s.smp.bitCnt + 1#5 ≠ s.smp.expBits := fun heq => by
        have hnat := congrArg BitVec.toNat heq
        rw [BitVec.toNat_add, hbit, hcyc, hexp] at hnat
        simp only [BitVec.toNat_ofNat] at hnat
        omega
      rw [clockEdge_module_smp _ hrun (by omega) hmid]
      exact ⟨hnext, hpanel', hmodule', by omega⟩

/-- An edge taken restarts the countdown (40_bus_sampler R131, R139). -/
theorem clockEdge_stamps (data : Bool) {s : State} (hrun : s.ctl.running = true) :
    (clockEdge data s).smp.lastEdge = s.ctl.now ∧ (clockEdge data s).smp.silArmed = true := by
  rcases Nat.mod_two_eq_zero_or_one s.smp.cyc.toNat with heven | hodd
  · rw [clockEdge_panel_smp data hrun heven]
    exact ⟨rfl, rfl⟩
  · by_cases hlast : s.smp.bitCnt + 1#5 = s.smp.expBits
    · rw [clockEdge_last_smp data hrun hodd hlast]
      exact ⟨rfl, rfl⟩
    · rw [clockEdge_module_smp data hrun hodd hlast]
      exact ⟨rfl, rfl⟩

/-- An edge of a frame cycle is one edge more, and it is now. -/
theorem clockEdge_edgesTaken {c : Config} {d : Nat → Bool} {n : Nat} {s : State} (hn : n < 32)
    (h : EdgesTaken c d n s) :
    EdgesTaken c d (n + 1) (clockEdge (d n) s) ∧ EdgeIsNow (n + 1) (clockEdge (d n) s) :=
  ⟨{ cfg := by rw [clockEdge_cfg, h.cfg]
     ready := clockEdge_ready (d n) h.cursors h.ready
     running := by rw [clockEdge_ctl, h.running]
     cursors := clockEdge_cursorsAgree (d n) h.cursors
     placed := clockEdge_placed hn h },
   fun _ => by rw [clockEdge_ctl]; exact clockEdge_stamps (d n) h.running⟩

/-- Before the first edge a timeout may realign the cursors, which are at zero anyway; after it none comes in time. -/
theorem advanceTime_placed {c : Config} {d : Nat → Bool} {n : Nat} {dt : BitVec 24} {s : State}
    (hdt : dt.toNat ≤ c.silenceWindowUs) (h : EdgesTaken c d n s) (hnow : EdgeIsNow n s) :
    (advanceTime dt s).smp.Placed d n := by
  by_cases hn : n = 0
  · subst hn
    rcases advanceTime_smp dt s with hsmp | hsmp <;> rw [hsmp]
    · exact h.placed
    · exact placed_zero d rfl
  · have hzero : s.elapsed s.smp.lastEdge = 0 := by
      rw [(hnow hn).1, State.elapsed, BitVec.sub_self]
      rfl
    have hsmp : (advanceTime dt s).smp = s.smp := advanceLoop_smp_of_within _ _
      (Config.valid_bounds h.ready.1).1 (by rw [hzero, h.cfg]; omega)
    rw [hsmp]
    exact h.placed

theorem advanceTime_edgesTaken {c : Config} {d : Nat → Bool} {n : Nat} {dt : BitVec 24} {s : State}
    (hdt : dt.toNat ≤ c.silenceWindowUs) (h : EdgesTaken c d n s) (hnow : EdgeIsNow n s) :
    EdgesTaken c d n (advanceTime dt s) where
  cfg := by rw [advanceTime_cfg, h.cfg]
  ready := advanceTime_ready dt h.cursors h.ready
  running := by rw [advanceTime_running, h.running]
  cursors := advanceLoop_cursorsAgree _ _ h.cursors
  placed := advanceTime_placed hdt h hnow

/-- The log and the result word take no part in the edges taken. -/
theorem EdgesTaken.withFired {c : Config} {d : Nat → Bool} {n : Nat} {s : State} (h : EdgesTaken c d n s)
    (x : List Event) : EdgesTaken c d n (s.withFired x) := ⟨h.cfg, h.ready, h.running, h.cursors, h.placed⟩

theorem EdgesTaken.withResult {c : Config} {d : Nat → Bool} {n : Nat} {s : State} (h : EdgesTaken c d n s)
    (x : Word) : EdgesTaken c d n (s.withResult x) := ⟨h.cfg, h.ready, h.running, h.cursors, h.placed⟩

/-! ### Runs -/

theorem runsTo_append {l₁ l₂ : List Instr} {s : State} {post : State → Prop} :
    RunsTo (l₁ ++ l₂) s post ↔ RunsTo l₁ s fun t => RunsTo l₂ t post := by
  induction l₁ generalizing s with
  | nil => rfl
  | cons i is ih => simp only [List.cons_append, RunsTo, ih]

theorem RunsTo.mono {l : List Instr} {s : State} {post post' : State → Prop} (hpost : ∀ t, post t → post' t)
    (h : RunsTo l s post) : RunsTo l s post' := by
  induction l generalizing s with
  | nil => exact hpost s h
  | cons i is ih =>
    obtain ⟨t, hexec, hrest⟩ := h
    exact ⟨t, hexec, ih hrest⟩

theorem edgesOf_succ (d : Nat → Bool) (dt : Nat → BitVec 24) (n : Nat) :
    edgesOf d dt (n + 1) = edgesOf d dt n ++ [.advance (dt n), .clockEdge (d n)] := by
  simp [edgesOf, List.range_succ]

/-- One more edge, any time up to the silence window after the one before. -/
theorem runsTo_nextEdge {c : Config} {d : Nat → Bool} {n : Nat} {dt : BitVec 24} {s : State} (hn : n < 32)
    (hdt : dt.toNat ≤ c.silenceWindowUs) (h : EdgesTaken c d n s) (hnow : EdgeIsNow n s) :
    RunsTo [.advance dt, .clockEdge (d n)] s fun t => EdgesTaken c d (n + 1) t ∧ EdgeIsNow (n + 1) t := by
  have hadv : EdgesTaken c d n (finish (effectOf (.advance dt) (s.withFired []))) :=
    (advanceTime_edgesTaken hdt (h.withFired []) hnow).withResult 0
  obtain ⟨hedge, hstamp⟩ := clockEdge_edgesTaken hn (hadv.withFired [])
  exact completes_iff.2 ⟨h.ready, completes_iff.2 ⟨hadv.ready, hedge.withResult 0, hstamp⟩⟩

/-- Any number of edges of an aligned frame cycle, up to the whole of it. -/
theorem runsTo_edgesOf {d : Nat → Bool} {dt : Nat → BitVec 24} {s : State} (hready : s.Ready)
    (hrun : s.ctl.running = true) (hcur : s.CursorsAgree) (hcyc : s.smp.cyc = 0#5) {n : Nat} (hn : n ≤ 32)
    (hdt : ∀ j < n, (dt j).toNat ≤ s.cfg.silenceWindowUs) :
    RunsTo (edgesOf d dt n) s fun t => EdgesTaken s.cfg d n t ∧ EdgeIsNow n t := by
  induction n with
  | zero => exact ⟨⟨rfl, hready, hrun, hcur, placed_zero d hcyc⟩, fun h => absurd rfl h⟩
  | succ n ih =>
    rw [edgesOf_succ, runsTo_append]
    refine (ih (by omega) fun j hj => hdt j (by omega)).mono fun t ht => ?_
    exact runsTo_nextEdge (by omega) (hdt n (by omega)) ht.1 ht.2

/-- Agreeing cursors are all at zero together (10_state R24). -/
theorem cursors_zero {s : State} (h : s.CursorsAgree) (hcyc : s.smp.cyc = 0#5) :
    s.smp.bitCnt = 0#5 ∧ s.smp.byteIdx = 0#1 := by
  obtain ⟨-, hbit, hbyte⟩ := h
  rw [hcyc] at hbit
  rw [hbit] at hbyte
  exact ⟨BitVec.eq_of_toNat_eq hbit, BitVec.eq_of_toNat_eq hbyte⟩

/-- Settles O16: by induction on the edges each sample moves up with the samples that follow it in its byte, and the 32nd
edge hands the four bytes over. -/
theorem thirtyTwoEdgesPlaceEveryBit : Obligations.ThirtyTwoEdgesPlaceEveryBit := by
  intro s d dt hinv hrun hcyc hdt
  have hcur : s.CursorsAgree := hinv.2.1
  refine (runsTo_edgesOf hinv.ready hrun hcur hcyc le_rfl hdt).mono ?_
  rintro t ⟨⟨-, -, -, hcur', ⟨hround, hpanel, hmodule, hhanded⟩⟩, -⟩
  obtain ⟨hcmd, hmod, hready⟩ := hhanded rfl
  have hcyc' : t.smp.cyc = 0#5 := BitVec.eq_of_toNat_eq hround
  obtain ⟨hbit, hbyte⟩ := cursors_zero hcur' hcyc'
  refine ⟨fun k hk => ?_, hcmd, hmod, hready, hcyc', hbit, hbyte⟩
  obtain ⟨hc0, hc1⟩ := hpanel.bytes hk
  obtain ⟨hm0, hm1⟩ := hmodule.bytes hk
  rw [show 2 * (8 + k) = 16 + 2 * k by omega] at hc1
  rw [show 2 * (8 + k) + 1 = 17 + 2 * k by omega] at hm1
  exact ⟨hc0, hc1, hm0, hm1⟩

end Sys2Proof.Machine

/-! PROOFS. Encoding (30_encoding): the decoder and the encoder invert each other up to ignored bits, which words stand for
a stimulus, and the step on each kind of word. -/

namespace Sys2Proof

open Sys2Proof.Statements

/-! ### The operand fields of a word -/

/-- The operand bits of a word are its fields `a`, `b`, `c` (30_encoding R103). -/
theorem dtField_eq_fields (w : Word) : dtField w = aField w ++ bField w ++ cField w := by
  have hab : aField w ++ bField w = w.extractLsb' 8 (8 + 8) := BitVec.extractLsb'_append_extractLsb'_eq_extractLsb' rfl
  have habc : w.extractLsb' 8 (8 + 8) ++ cField w = w.extractLsb' 0 (8 + 8 + 8) :=
    BitVec.extractLsb'_append_extractLsb'_eq_extractLsb' rfl
  rw [hab]
  exact habc.symm

theorem bitVec_append_inj {m n : Nat} {x x' : BitVec m} {y y' : BitVec n} :
    x ++ y = x' ++ y' ↔ x = x' ∧ y = y' := by
  constructor
  · intro h
    have hhigh := congrArg (BitVec.extractLsb' n m) h
    have hlow := congrArg (BitVec.extractLsb' 0 n) h
    rw [BitVec.extractLsb'_append_eq_left, BitVec.extractLsb'_append_eq_left] at hhigh
    rw [BitVec.extractLsb'_append_eq_right, BitVec.extractLsb'_append_eq_right] at hlow
    exact ⟨hhigh, hlow⟩
  · rintro ⟨rfl, rfl⟩
    rfl

theorem dtField_eq_bytes {w : Word} {a b c : Byte} :
    dtField w = a ++ b ++ c ↔ aField w = a ∧ bField w = b ∧ cField w = c := by
  rw [dtField_eq_fields, bitVec_append_inj, bitVec_append_inj, and_assoc]

/-- One operand byte and the ignored fields `b` and `c`, all bits 0. -/
theorem append_zero_fields (a : Byte) : a ++ (0 : BitVec 16) = a ++ (0 : Byte) ++ (0 : Byte) := by
  rw [BitVec.append_assoc]
  rfl

theorem aField_of_dtField {w : Word} {a : Byte} (h : dtField w = a ++ (0 : BitVec 16)) : aField w = a :=
  (dtField_eq_bytes.1 (h.trans (append_zero_fields a))).1

@[simp] theorem bitOperand_bitField (x : Bool) : bitOperand (bitField x) = x := by
  cases x <;> rfl

/-- A field written back from its one-bit operand keeps bit 0 (30_encoding R103). -/
theorem bitField_bitOperand (f : Byte) : bitField (bitOperand f) = f &&& 1 := by
  revert f; decide

@[simp] theorem indexOperand_append (index : BitVec 4) : indexOperand ((0 : BitVec 4) ++ index) = index :=
  BitVec.extractLsb'_append_eq_right

/-- A field written back from its index operand keeps the low four bits (30_encoding R105). -/
theorem append_indexOperand (f : Byte) : (0 : BitVec 4) ++ indexOperand f = f &&& 0x0F := by
  revert f; decide

/-- The operand bits under a mask given by bytes. -/
theorem dtField_and_bytes (w : Word) (ma mb mc : Byte) :
    dtField w &&& (ma ++ mb ++ mc) = (aField w &&& ma) ++ (bField w &&& mb) ++ (cField w &&& mc) := by
  rw [dtField_eq_fields, BitVec.and_append, BitVec.and_append]

/-- A byte that is field `a` under a mask is, with `b` and `c` cleared, the operand bits under the mask that clears
them. -/
theorem append_zero_of_aField_and {w : Word} {ma x : Byte} (h : x = aField w &&& ma) :
    x ++ (0 : BitVec 16) = dtField w &&& (ma ++ (0 : BitVec 16)) := by
  simp only [append_zero_fields, dtField_and_bytes, h]
  simp

/-! ### The decoder as a relation -/

/-- The operation of the same kind with its operands read from the fields of a word (30_encoding R103, R105). -/
def Instr.reread (w : Word) : Instr → Instr
  | .initialise _ _ _ => .initialise (aField w) (bField w) (cField w)
  | .start _ => .start (bitOperand (aField w))
  | .poll => .poll
  | .push _ => .push (aField w)
  | .reqBeep _ => .reqBeep (aField w)
  | .reqTone _ _ _ => .reqTone (aField w) (bitOperand (bField w)) (cField w)
  | .reqBuzzer _ => .reqBuzzer (aField w)
  | .keyRead => .keyRead
  | .keyClear => .keyClear
  | .frameRead => .frameRead
  | .ovfRead _ => .ovfRead (bitOperand (aField w))
  | .indRead _ => .indRead (indexOperand (aField w))
  | .clockEdge _ => .clockEdge (bitOperand (aField w))
  | .advance _ => .advance (dtField w)
  | .silenceTimeout => .silenceTimeout
  | .acousticBoundary => .acousticBoundary
  | .frameComplete => .frameComplete
  | .pop => .pop

/-- Only `op` selects the operation: a word with its code decodes to it, with the operands of the word. -/
theorem decode_of_opField {w : Word} {i : Instr} (h : opField w = i.opcode) : decode w = .ok (i.reread w) := by
  unfold decode
  rw [h]
  cases i <;> rfl

/-- A word decodes to an operation exactly if its `op` is the operation's code and its fields read as the operands. -/
theorem decode_eq_ok_iff {w : Word} {i : Instr} : decode w = .ok i ↔ opField w = i.opcode ∧ i.reread w = i := by
  constructor
  · intro h
    unfold decode at h
    split at h <;> cases h <;> exact ⟨BitVec.eq_of_toNat_eq ‹_›, rfl⟩
  · rintro ⟨hop, hread⟩
    rw [decode_of_opField hop, hread]

/-- An operation's operand fields read as its operands, the ignored bits being no part of them. -/
theorem reread_of_dtField {w : Word} {i : Instr} (h : dtField w = i.operands) : i.reread w = i := by
  cases i with
  | initialise | reqTone =>
    obtain ⟨ha, hb, hc⟩ := dtField_eq_bytes.1 h
    simp [Instr.reread, ha, hb, hc]
  | start | push | reqBeep | reqBuzzer | ovfRead | indRead | clockEdge =>
    simp only [Instr.reread, aField_of_dtField h, bitOperand_bitField, indexOperand_append]
  | advance => exact congrArg Instr.advance h
  | poll | keyRead | keyClear | frameRead | silenceTimeout | acousticBoundary | frameComplete | pop => rfl

/-- Settles O1: the encoded word carries the operation's code, and its fields read back as the operands. -/
theorem decodeOfEncodedOperation : Obligations.DecodeOfEncodedOperation := by
  intro i
  obtain ⟨hop, hdt⟩ := Laws.encode_fields i
  exact decode_eq_ok_iff.2 ⟨hop, reread_of_dtField hdt⟩

/-! ### The ignored bits -/

/-- A word is its code and its operand bits. -/
theorem word_eq_fields (w : Word) : opField w ++ dtField w = w :=
  (BitVec.extractLsb'_append_extractLsb'_eq_extractLsb' rfl).trans BitVec.extractLsb'_eq_self

/-- The bits of the operand fields `a`, `b`, `c` that decoding keeps for an operation (30_encoding R103, R105). -/
def Instr.keptOperands : Instr → BitVec 24
  | .initialise _ _ _ | .advance _ => BitVec.allOnes 24
  | .reqTone _ _ _ => BitVec.allOnes 8 ++ 0x01#8 ++ BitVec.allOnes 8
  | .start _ | .ovfRead _ | .clockEdge _ => 0x01#8 ++ 0#16
  | .push _ | .reqBeep _ | .reqBuzzer _ => BitVec.allOnes 8 ++ 0#16
  | .indRead _ => 0x0F#8 ++ 0#16
  | .poll | .keyRead | .keyClear | .frameRead | .silenceTimeout | .acousticBoundary | .frameComplete | .pop => 0

/-- The code is kept whole. -/
theorem keptBits_eq (i : Instr) : keptBits i = BitVec.allOnes 8 ++ i.keptOperands := by
  cases i <;> (simp only [keptBits, Instr.keptOperands]; decide)

/-- Operands read from a word and written back are the operand bits of the word that the operation keeps. -/
theorem operands_reread (w : Word) (i : Instr) : (i.reread w).operands = dtField w &&& i.keptOperands := by
  cases i with
  | initialise => exact (dtField_eq_fields w).symm.trans BitVec.and_allOnes.symm
  | reqTone =>
    simp only [Instr.reread, Instr.operands, Instr.keptOperands, dtField_and_bytes, BitVec.and_allOnes,
      bitField_bitOperand]
    rfl
  | start | ovfRead | clockEdge => exact append_zero_of_aField_and (bitField_bitOperand _)
  | push | reqBeep | reqBuzzer => exact append_zero_of_aField_and BitVec.and_allOnes.symm
  | indRead => exact append_zero_of_aField_and (append_indexOperand _)
  | advance => exact BitVec.and_allOnes.symm
  | poll | keyRead | keyClear | frameRead | silenceTimeout | acousticBoundary | frameComplete | pop =>
    exact BitVec.and_zero.symm

/-- Settles O2: the code is kept whole, and the operands written back are the operand bits under the mask. -/
theorem encodeOfDecodedWordKeepsReadBits : Obligations.EncodeOfDecodedWordKeepsReadBits := by
  intro w i h
  obtain ⟨hop, hread⟩ := decode_eq_ok_iff.1 h
  calc encode i = i.opcode ++ (i.reread w).operands := by rw [hread]; rfl
    _ = (opField w &&& BitVec.allOnes 8) ++ (dtField w &&& i.keptOperands) := by
      rw [operands_reread, BitVec.and_allOnes, hop]
    _ = w &&& keptBits i := by rw [← BitVec.and_append, word_eq_fields, keptBits_eq]

/-- Settles O3: each word has the code of its operation, and its fields read as the listed operands. -/
theorem listedWordsDecode : Obligations.ListedWordsDecode := by
  refine ⟨?_, ?_, ?_, ?_, ?_, ?_, ?_, ?_⟩ <;> exact decode_eq_ok_iff.2 ⟨rfl, rfl⟩

/-! ### Stimulus words -/

/-- A stimulus word stands for the injectable operation that it decodes to, if any (30_encoding R106, R107). -/
theorem decodeStimulus_eq_ok_iff {w : Word} {i : Instr} :
    decodeStimulus w = .ok i ↔ decode w = .ok i ∧ i.wellFormed = true := by
  unfold decodeStimulus
  cases decode w with
  | error r => simp
  | ok j =>
    by_cases hj : j.wellFormed = true
    · simp only [hj, if_true, Except.ok.injEq]
      exact ⟨fun hij => ⟨hij, hij ▸ hj⟩, And.left⟩
    · simp only [hj, Except.ok.injEq]
      exact ⟨fun h => (nomatch h), fun ⟨hij, hwf⟩ => absurd (hij ▸ hwf) hj⟩

/-- Which operation a word carries does not depend on its operands. -/
@[simp] theorem Instr.wellFormed_reread (w : Word) (i : Instr) : (i.reread w).wellFormed = i.wellFormed := by
  cases i <;> rfl

/-- The table of R105: the codes of the injectable operations. -/
theorem exists_wellFormed_opcode_iff {op : Nat} :
    (∃ i : Instr, i.wellFormed = true ∧ i.opcode.toNat = op) ↔ 1 ≤ op ∧ op ≤ 12 ∨ op = 0x80 ∨ op = 0x81 := by
  constructor
  · rintro ⟨i, hi, rfl⟩
    cases i with
    | silenceTimeout | acousticBoundary | frameComplete | pop => cases hi
    | _ => simp [Instr.opcode]
  · rintro (⟨hlo, hhi⟩ | rfl | rfl)
    · interval_cases op
      · exact ⟨.initialise 0 0 0, rfl, rfl⟩
      · exact ⟨.start false, rfl, rfl⟩
      · exact ⟨.poll, rfl, rfl⟩
      · exact ⟨.push 0, rfl, rfl⟩
      · exact ⟨.reqBeep 0, rfl, rfl⟩
      · exact ⟨.reqTone 0 false 0, rfl, rfl⟩
      · exact ⟨.reqBuzzer 0, rfl, rfl⟩
      · exact ⟨.keyRead, rfl, rfl⟩
      · exact ⟨.keyClear, rfl, rfl⟩
      · exact ⟨.frameRead, rfl, rfl⟩
      · exact ⟨.ovfRead false, rfl, rfl⟩
      · exact ⟨.indRead 0, rfl, rfl⟩
    · exact ⟨.clockEdge false, rfl, rfl⟩
    · exact ⟨.advance 0, rfl, rfl⟩

/-- A word stands for a stimulus exactly if its `op` is in the table of R105. -/
theorem exists_decodeStimulus_iff {w : Word} : (∃ i, decodeStimulus w = .ok i) ↔
    1 ≤ w.toNat / 2 ^ 24 ∧ w.toNat / 2 ^ 24 ≤ 12 ∨ w.toNat / 2 ^ 24 = 0x80 ∨ w.toNat / 2 ^ 24 = 0x81 := by
  rw [← exists_wellFormed_opcode_iff, ← opField_toNat]
  constructor
  · rintro ⟨i, h⟩
    obtain ⟨hdec, hwf⟩ := decodeStimulus_eq_ok_iff.1 h
    exact ⟨i, hwf, congrArg BitVec.toNat (decode_eq_ok_iff.1 hdec).1.symm⟩
  · rintro ⟨i, hwf, hop⟩
    have hdec : decode w = .ok (i.reread w) := decode_of_opField (BitVec.eq_of_toNat_eq hop.symm)
    exact ⟨i.reread w, decodeStimulus_eq_ok_iff.2 ⟨hdec, by rw [Instr.wellFormed_reread, hwf]⟩⟩

end Sys2Proof

namespace Sys2Proof.Machine

/-! ### The step on each kind of word -/

theorem step_of_no_stimulus {s : State} (h : s.inputs = []) : step s = .next s := by
  simp [step, State.nextWord, h]

theorem step_of_stimulus {s : State} {w : Word} {ws : List Word} {i : Instr} (h : s.inputs = w :: ws)
    (hdec : decodeStimulus w = .ok i) : step s = exec i (s.withInputs ws) := by
  simp [step, State.nextWord, State.dropWord, h, hdec]

theorem step_of_reserved {s : State} {w : Word} {ws : List Word} {r : Reserved} (h : s.inputs = w :: ws)
    (hdec : decodeStimulus w = .error r) : step s = reservedWord (s.withInputs ws) := by
  simp [step, State.nextWord, State.dropWord, h, hdec]

/-- In a ready state a reserved word completes with result 0 and an empty log (30_encoding R107). -/
theorem reservedWord_of_ready {s : State} (h : s.Ready) : reservedWord s = .next ((s.withFired []).withResult 0) :=
  operate_of_ready h.1 h.2 (silent id)

/-- Settles O4: a step on a word of an injectable operation is that operation, with the word taken. -/
theorem stepRunsTheDecodedStimulus : Obligations.StepRunsTheDecodedStimulus := by
  refine ⟨fun s w ws i hinputs hdec hwf => ?_, fun s => step_of_no_stimulus⟩
  exact step_of_stimulus hinputs (decodeStimulus_eq_ok_iff.2 ⟨hdec, hwf⟩)

/-- Settles O5: the listed codes are those of the injectable operations, and a word of no such operation is reserved. -/
theorem reservedWordsDoNothing : Obligations.ReservedWordsDoNothing := by
  intro s w ws hinputs
  dsimp only
  split
  next hlisted => exact exists_decodeStimulus_iff.2 hlisted
  next hunlisted =>
    intro hready
    cases hdec : decodeStimulus w with
    | ok i => exact absurd (exists_decodeStimulus_iff.1 ⟨i, hdec⟩) hunlisted
    | error r =>
      rw [step_of_reserved hinputs hdec]
      exact reservedWord_of_ready (s := s.withInputs ws) hready

end Sys2Proof.Machine

/-! PROOFS. The ring of the Key Buffer (10_state R28, 43_key_buffer): what a push and a pop do to its entries. -/

namespace Sys2Proof.Machine

open Sys2Proof.Statements

/-! ### The content of the ring -/

/-- `KB_MEM[(KB_RD + k) mod KB_CAPACITY]`: entry `k` of the ring, counted from the oldest (43_key_buffer R225). -/
def State.entry (s : State) (k : Nat) : Byte := s.kb.mem.read ((s.kb.rd.toNat + k) % s.cfg.kbCapacity)

theorem State.queue_eq_map_entry (s : State) : s.queue = (List.range s.kbCount).map s.entry := rfl

theorem State.peek_eq_entry (s : State) : s.peek = s.entry 0 := rfl

theorem State.mem_queue {s : State} {code : Byte} : code ∈ s.queue ↔ ∃ k < s.kbCount, s.entry k = code := by
  simp [State.queue_eq_map_entry]

/-- A pointer moved on names the next index of the ring, wrapped or not (43_key_buffer R221, R222). -/
theorem nextPointer_add_mod {p : Byte} {capacity : Nat} (hcap : capacity ≤ 127) (hp : p.toNat < 2 * capacity) (k : Nat) :
    ((nextPointer p capacity).toNat + k) % capacity = (p.toNat + (k + 1)) % capacity := by
  rcases nextPointer_cases hcap hp with ⟨hwrap, hnext⟩ | ⟨-, hnext⟩
  · rw [hnext, show p.toNat + (k + 1) = 0 + k + capacity * 2 by omega, Nat.add_mul_mod_self_left]
  · rw [hnext, Nat.add_assoc, Nat.add_comm 1 k]

/-- A pop moves every entry one place up (43_key_buffer R222). -/
theorem popKey_entry {s : State} (hv : s.cfg.valid = true) (h : s.PointersInRange) (hne : s.kbCount ≠ 0) (k : Nat) :
    (popKey s).entry k = s.entry (k + 1) := by
  obtain ⟨-, hcap, -⟩ := Config.valid_iff.1 hv
  rw [State.entry, popKey_mem, popKey_cfg, popKey_kb, if_neg hne]
  exact congrArg s.kb.mem.read (nextPointer_add_mod hcap h.2.1 k)

theorem popKey_kbCount {s : State} (hv : s.cfg.valid = true) (h : s.PointersInRange) (hne : s.kbCount ≠ 0) :
    (popKey s).kbCount + 1 = s.kbCount := by
  obtain ⟨-, hcap, -⟩ := Config.valid_iff.1 hv
  rw [State.kbCount, popKey_kb, if_neg hne, popKey_cfg]
  exact KeyBuffer.count_nextPointer_rd hcap h.1 h.2.1 hne

/-- The write pointer stands as many entries after the read pointer as the ring holds (10_state R28). -/
theorem wr_mod_capacity {s : State} (h : s.PointersInRange) :
    s.kb.wr.toNat % s.cfg.kbCapacity = (s.kb.rd.toNat + s.kbCount) % s.cfg.kbCapacity := by
  obtain ⟨hwr, hrd, -⟩ := h
  have hcount := KeyBuffer.count_cases hwr hrd
  change (s.kb.rd.toNat ≤ s.kb.wr.toNat ∧ s.kbCount + _ = _) ∨ (_ ∧ s.kbCount + _ = _) at hcount
  rcases hcount with ⟨-, hsum⟩ | ⟨-, hsum⟩
  · rw [Nat.add_comm, hsum]
  · rw [Nat.add_comm, hsum, Nat.mul_comm, Nat.add_mul_mod_self_left]

/-- Two entries less than a ring's length apart stand in different cells. -/
theorem index_ne_of_lt {rd k n capacity : Nat} (hk : k < n) (hn : n < capacity) :
    (rd + n) % capacity ≠ (rd + k) % capacity := by
  intro heq
  have hmod : n % capacity = k % capacity := Nat.ModEq.add_left_cancel' rd heq
  rw [Nat.mod_eq_of_lt hn, Nat.mod_eq_of_lt (hk.trans hn)] at hmod
  omega

theorem pushRing_of_full (code : Byte) {s : State} (h : s.kbCount = s.cfg.kbCapacity) :
    pushRing code s = s.withKb { s.kb with overflow := true } := if_pos (decide_eq_true h)

theorem pushRing_of_free (code : Byte) {s : State} (h : s.kbCount < s.cfg.kbCapacity) :
    pushRing code s = s.withKb { s.kb with
      mem := s.kb.mem.write (s.kb.wr.toNat % s.cfg.kbCapacity) code, wr := nextPointer s.kb.wr s.cfg.kbCapacity } :=
  if_neg (by simp [State.kbFull, h.ne])

/-- An accepted push leaves the entries of the ring as they are and appends one (43_key_buffer R221). -/
theorem pushRing_entry {code : Byte} {s : State} (hwf : s.kb.mem.wf = true) (h : s.PointersInRange)
    (hfree : s.kbCount < s.cfg.kbCapacity) {k : Nat} (hk : k ≤ s.kbCount) :
    (pushRing code s).entry k = if k = s.kbCount then code else s.entry k := by
  rw [pushRing_of_free code hfree, State.entry, wr_mod_capacity h]
  split
  next hlast =>
    rw [hlast]
    exact Memory.read_write_same code hwf
  next hold =>
    have hk' : k < s.kbCount := lt_of_le_of_ne hk hold
    exact Memory.read_write_other code (index_ne_of_lt hk' hfree)

/-- The write pointer moved on leaves one entry more (43_key_buffer R221). -/
theorem KeyBuffer.count_nextPointer_wr {k : KeyBuffer} {capacity : Nat} (mem : Memory) (hcap : capacity ≤ 127)
    (hwr : k.wr.toNat < 2 * capacity) (hrd : k.rd.toNat < 2 * capacity) (hfree : k.count capacity < capacity) :
    KeyBuffer.count { k with mem := mem, wr := nextPointer k.wr capacity } capacity = k.count capacity + 1 := by
  have hnext := nextPointer_cases hcap hwr
  have hwr' : (nextPointer k.wr capacity).toNat < 2 * capacity := by omega
  have hold := KeyBuffer.count_cases hwr hrd
  have hnew := KeyBuffer.count_cases (k := { k with mem := mem, wr := nextPointer k.wr capacity }) hwr' hrd
  dsimp only at hnew ⊢
  omega

theorem pushRing_kbCount (code : Byte) {s : State} (hv : s.cfg.valid = true) (h : s.PointersInRange)
    (hfree : s.kbCount < s.cfg.kbCapacity) : (pushRing code s).kbCount = s.kbCount + 1 := by
  obtain ⟨-, hcap, -⟩ := Config.valid_iff.1 hv
  rw [pushRing_of_free code hfree]
  exact KeyBuffer.count_nextPointer_wr _ hcap h.1 h.2.1 hfree

theorem pushRing_pointersInRange (code : Byte) {s : State} (hv : s.cfg.valid = true) (h : s.PointersInRange)
    (hfree : s.kbCount < s.cfg.kbCapacity) : (pushRing code s).PointersInRange := by
  have hcount := pushRing_kbCount code hv h hfree
  obtain ⟨-, hcap, -⟩ := Config.valid_iff.1 hv
  obtain ⟨hwr, hrd, -⟩ := h
  have hnext := nextPointer_cases hcap hwr
  rw [pushRing_of_free code hfree] at hcount ⊢
  have hwr' : (nextPointer s.kb.wr s.cfg.kbCapacity).toNat < 2 * s.cfg.kbCapacity := by omega
  exact ⟨hwr', hrd, hcount.trans_le hfree⟩

/-- The ring: pointers in range, and no entry of class `Alarm` (10_state R28, 41_key_encoder R166). -/
theorem State.ringHolds_iff {s : State} :
    s.RingHolds ↔ s.PointersInRange ∧ ∀ k < s.kbCount, s.cfg.keyClass (s.entry k) ≠ .alarm := by
  simp only [State.RingHolds, State.PointersInRange, State.mem_queue, and_assoc, forall_exists_index, and_imp]
  exact and_congr_right fun _ => and_congr_right fun _ => and_congr_right fun _ =>
    ⟨fun h k hk => h _ k hk rfl, fun h _ k hk hcode => hcode ▸ h k hk⟩

theorem popKey_ringHolds {s : State} (hv : s.cfg.valid = true) (h : s.RingHolds) : (popKey s).RingHolds := by
  obtain ⟨hptr, hclass⟩ := State.ringHolds_iff.1 h
  by_cases hempty : s.kbCount = 0
  · rw [popKey, if_pos hempty]
    exact h
  · have hcount := popKey_kbCount hv hptr hempty
    refine State.ringHolds_iff.2 ⟨popKey_pointersInRange hv hptr, fun k hk => ?_⟩
    rw [popKey_cfg, popKey_entry hv hptr hempty]
    exact hclass (k + 1) (by omega)

theorem pushRing_ringHolds {code : Byte} {s : State} (hv : s.cfg.valid = true) (hwf : s.kb.mem.wf = true)
    (hcode : s.cfg.keyClass code ≠ .alarm) (h : s.RingHolds) : (pushRing code s).RingHolds := by
  obtain ⟨hptr, hclass⟩ := State.ringHolds_iff.1 h
  rcases hptr.2.2.lt_or_eq with hfree | hfull
  · have hcount := pushRing_kbCount code hv hptr hfree
    refine State.ringHolds_iff.2 ⟨pushRing_pointersInRange code hv hptr hfree, fun k hk => ?_⟩
    rw [pushRing_cfg, pushRing_entry hwf hptr hfree (by omega)]
    split
    · exact hcode
    · exact hclass k (by omega)
  · rw [pushRing_of_full code hfull]
    exact h

end Sys2Proof.Machine

/-! PROOFS. Time (40_bus_sampler R140 to R143): the deadlines while time passes, the turns of the loop of `ADVANCE`, and the
additivity of time. -/

namespace Sys2Proof.Machine

open Sys2Proof.Statements

/-! ### The deadlines while time passes -/

theorem State.tick_zero (s : State) : s.tick 0 = s := by
  simp [State.tick, State.withCtl]

theorem State.tick_tick (s : State) (m n : Nat) : (s.tick m).tick n = s.tick (m + n) := by
  simp [State.tick, State.withCtl, BitVec.add_assoc, BitVec.ofNat_add]

theorem State.silenceDue_of_armed {s : State} (hrun : s.ctl.running = true) (harm : s.smp.silArmed = true) :
    s.silenceDue = some (s.cfg.silenceWindowUs + 1 - s.elapsed s.smp.lastEdge) := if_pos ⟨hrun, harm⟩

theorem State.silenceDue_of_disarmed {s : State} (harm : s.smp.silArmed = false) : s.silenceDue = none :=
  if_neg (by simp [harm])

theorem State.acousticDue_of_request {s : State} (h : s.ac.acType ≠ .none) :
    s.acousticDue = some (s.ac.length s.cfg - s.elapsed s.ac.t0) := if_neg h

theorem State.acousticDue_of_none {s : State} (h : s.ac.acType = .none) : s.acousticDue = none := if_pos h

/-- A deadline is the time left of a length of which `elapsed` has passed: it gets nearer as time passes. -/
theorem State.left_tick {s : State} {t : Time} {length n : Nat} (hl : length < 2 ^ 32) (h : n ≤ length - s.elapsed t) :
    length - (s.tick n).elapsed t = length - s.elapsed t - n := by
  have hlt : s.elapsed t < 2 ^ 32 := (s.ctl.now - t).isLt
  rw [State.elapsed_tick s n t (by omega), Nat.sub_sub]

theorem State.silenceDue_tick {s : State} {n : Nat} (hv : s.cfg.valid = true) (h : ∀ d, s.silenceDue = some d → n ≤ d) :
    (s.tick n).silenceDue = s.silenceDue.map (· - n) := by
  by_cases harm : s.ctl.running = true ∧ s.smp.silArmed = true
  · obtain ⟨hrun, harm⟩ := harm
    have hw := (Config.valid_bounds hv).1
    rw [State.silenceDue_of_armed hrun harm] at h ⊢
    rw [State.silenceDue_of_armed (s := s.tick n) hrun harm]
    exact congrArg some (State.left_tick (length := s.cfg.silenceWindowUs + 1) (by omega) (h _ rfl))
  · rw [show s.silenceDue = none from if_neg harm]
    exact if_neg harm

theorem State.acousticDue_tick {s : State} {n : Nat} (hv : s.cfg.valid = true) (h : ∀ d, s.acousticDue = some d → n ≤ d) :
    (s.tick n).acousticDue = s.acousticDue.map (· - n) := by
  by_cases hty : s.ac.acType = .none
  · rw [State.acousticDue_of_none hty]
    exact State.acousticDue_of_none (s := s.tick n) hty
  · rw [State.acousticDue_of_request hty] at h ⊢
    rw [State.acousticDue_of_request (s := s.tick n) hty]
    exact congrArg some (State.left_tick (s.ac.length_lt hv) (h _ rfl))

/-- No deadline falls within the next `n` microseconds. -/
def State.QuietFor (s : State) (n : Nat) : Prop :=
  (∀ d, s.silenceDue = some d → n < d) ∧ ∀ d, s.acousticDue = some d → n < d

theorem State.lt_silenceDue_iff {s : State} {n : Nat} : (∀ d, s.silenceDue = some d → n < d) ↔
    (s.ctl.running = true → s.smp.silArmed = true → s.elapsed s.smp.lastEdge + n ≤ s.cfg.silenceWindowUs) := by
  by_cases harm : s.ctl.running = true ∧ s.smp.silArmed = true
  · rw [State.silenceDue_of_armed harm.1 harm.2]
    simp only [Option.some.injEq, forall_eq', harm.1, harm.2, forall_true_left]
    omega
  · rw [show s.silenceDue = none from if_neg harm]
    exact ⟨fun _ hrun hon => absurd ⟨hrun, hon⟩ harm, fun _ _ hd => nomatch hd⟩

theorem State.lt_acousticDue_iff {s : State} {n : Nat} : (∀ d, s.acousticDue = some d → n < d) ↔
    (s.ac.acType ≠ .none → s.elapsed s.ac.t0 + n < s.ac.length s.cfg) := by
  by_cases hty : s.ac.acType = .none
  · rw [State.acousticDue_of_none hty]
    exact ⟨fun _ hne => absurd hty hne, fun _ _ hd => nomatch hd⟩
  · rw [State.acousticDue_of_request hty]
    simp only [Option.some.injEq, forall_eq', ne_eq, hty, not_false_eq_true, forall_true_left]
    omega

theorem State.quietFor_iff {s : State} {n : Nat} : s.QuietFor n ↔
    (s.ctl.running = true → s.smp.silArmed = true → s.elapsed s.smp.lastEdge + n ≤ s.cfg.silenceWindowUs)
      ∧ (s.ac.acType ≠ .none → s.elapsed s.ac.t0 + n < s.ac.length s.cfg) :=
  and_congr State.lt_silenceDue_iff State.lt_acousticDue_iff

/-- That no deadline has passed unfired says that every deadline lies ahead. -/
theorem State.later_iff_urgent {s : State} : s.Later ↔ s.Urgent := State.quietFor_iff (n := 0)

theorem State.QuietFor.tick {s : State} {m n : Nat} (hv : s.cfg.valid = true) (h : s.QuietFor (m + n)) :
    (s.tick m).QuietFor n := by
  obtain ⟨hs, ha⟩ := h
  constructor
  · rw [State.silenceDue_tick hv fun d hd => by have := hs d hd; omega]
    intro d hd
    obtain ⟨e, he, rfl⟩ := Option.map_eq_some_iff.1 hd
    have := hs e he
    omega
  · rw [State.acousticDue_tick hv fun d hd => by have := ha d hd; omega]
    intro d hd
    obtain ⟨e, he, rfl⟩ := Option.map_eq_some_iff.1 hd
    have := ha e he
    omega

/-! ### The turns of the loop -/

/-- One turn of the loop of `ADVANCE`, at the instant `r` from now (40_bus_sampler R140). -/
def State.turn (s : State) (r : Nat) : State := fireDue s.silenceDue s.acousticDue r (s.tick r)

theorem earliest_eq_none {a b : Option Nat} (h : earliest a b = none) : a = none ∧ b = none := by
  cases a <;> cases b <;> simp_all [earliest]

/-- Either no deadline falls within the time left, or the earliest one does. -/
theorem State.quietFor_or_turn (s : State) (rem : Nat) :
    s.QuietFor rem ∨ ∃ r ≤ rem, earliest s.silenceDue s.acousticDue = some r := by
  cases h : earliest s.silenceDue s.acousticDue with
  | none =>
    obtain ⟨hs, ha⟩ := earliest_eq_none h
    exact .inl ⟨by simp [hs], by simp [ha]⟩
  | some r =>
    obtain ⟨-, hs, ha⟩ := earliest_eq_some h
    rcases Nat.lt_or_ge rem r with hlt | hle
    · exact .inl ⟨fun d hd => hlt.trans_le (hs d hd), fun d hd => hlt.trans_le (ha d hd)⟩
    · exact .inr ⟨r, hle, rfl⟩

/-- With no deadline in the time left, the loop only moves `NOW`. -/
theorem advanceLoop_of_quietFor (fuel : Nat) {rem : Nat} {s : State} (h : s.QuietFor rem) :
    advanceLoop fuel rem s = s.tick rem := by
  cases fuel with
  | zero => rfl
  | succ fuel =>
    rw [advanceLoop]
    split
    · rfl
    · next r hr =>
      have hlt : rem < r := (earliest_eq_some hr).1.elim (h.1 r) (h.2 r)
      exact if_pos hlt

/-- With a deadline in the time left, the loop takes a turn at the earliest one. -/
theorem advanceLoop_of_turn (fuel : Nat) {rem r : Nat} {s : State} (h : earliest s.silenceDue s.acousticDue = some r)
    (hr : r ≤ rem) : advanceLoop (fuel + 1) rem s = advanceLoop fuel (rem - r) (s.turn r) := by
  rw [advanceLoop, h]
  exact if_neg hr.not_gt

@[simp] theorem State.turn_cfg (s : State) (r : Nat) : (s.turn r).cfg = s.cfg := by simp [State.turn]

theorem State.turn_ctl (s : State) (r : Nat) : (s.turn r).ctl = (s.tick r).ctl := fireDue_ctl _ _ _ _

theorem State.turn_formed {s : State} {r : Nat} (h : s.ac.formed = true) : (s.turn r).ac.formed = true :=
  fireDue_formed _ _ _ h

theorem State.turn_later {s : State} {r : Nat} (hv : s.cfg.valid = true) (hf : s.ac.formed = true)
    (h : earliest s.silenceDue s.acousticDue = some r) : (s.turn r).Later := fireDue_later hv hf h

theorem State.Later.turn_pos {s : State} {r : Nat} (hl : s.Later) (h : earliest s.silenceDue s.acousticDue = some r) :
    0 < r := (earliest_eq_some h).1.elim (hl.1 r) (hl.2 r)

/-- The loop moves `NOW` by the whole time left, whatever fires (40_bus_sampler R140). -/
theorem advanceLoop_ctl : ∀ (fuel rem : Nat) (s : State), (advanceLoop fuel rem s).ctl = (s.tick rem).ctl
  | 0, _, _ => rfl
  | fuel + 1, rem, s => by
    rcases s.quietFor_or_turn rem with hquiet | ⟨r, hr, hdue⟩
    · rw [advanceLoop_of_quietFor _ hquiet]
    · have hmoved : ((s.turn r).tick (rem - r)).ctl = ((s.tick r).tick (rem - r)).ctl := by
        simp only [State.tick, State.withCtl_ctl, State.turn_ctl]
      rw [advanceLoop_of_turn _ hdue hr, advanceLoop_ctl fuel, hmoved, State.tick_tick, Nat.add_sub_cancel' hr]

/-- After the loop every deadline lies ahead (40_bus_sampler R140). -/
theorem advanceLoop_later : ∀ (fuel rem : Nat) {s : State}, s.cfg.valid = true → s.ac.formed = true → s.Later →
    rem < fuel → (advanceLoop fuel rem s).Later
  | 0, _, _, _, _, _, hfuel => absurd hfuel (Nat.not_lt_zero _)
  | fuel + 1, rem, s, hv, hf, hl, hfuel => by
    rcases s.quietFor_or_turn rem with hquiet | ⟨r, hr, hdue⟩
    · rw [advanceLoop_of_quietFor _ hquiet]
      exact State.QuietFor.tick (n := 0) hv hquiet
    · have hpos := hl.turn_pos hdue
      rw [advanceLoop_of_turn _ hdue hr]
      exact advanceLoop_later fuel _ (by rwa [State.turn_cfg]) (State.turn_formed hf) (State.turn_later hv hf hdue)
        (by omega)

/-! ### Additivity -/

/-- With every deadline ahead, all fuel beyond the time left gives the same. -/
theorem advanceLoop_fuel_congr {f g rem : Nat} {s : State} (hv : s.cfg.valid = true) (hf : s.ac.formed = true)
    (hl : s.Later) (hfuel : rem < f) (hfuel' : rem < g) : advanceLoop f rem s = advanceLoop g rem s := by
  have hleast : ∀ n, rem + 1 ≤ n → advanceLoop n rem s = advanceLoop (rem + 1) rem s := fun n hn => by
    induction n, hn using Nat.le_induction with
    | base => rfl
    | succ n hn ih => rw [advanceLoop_fuel_of_later n rem s hv hf hl hn, ih]
  rw [hleast f hfuel, hleast g hfuel']

theorem earliest_map_sub (a b : Option Nat) (m : Nat) :
    earliest (a.map (· - m)) (b.map (· - m)) = (earliest a b).map (· - m) := by
  cases a <;> cases b <;> simp [earliest, Nat.sub_min_sub_right]

theorem map_sub_eq_some_iff {a : Option Nat} {m r : Nat} (ha : ∀ d, a = some d → m < d) (hr : m < r) :
    a.map (· - m) = some (r - m) ↔ a = some r := by
  cases a with
  | none => simp
  | some d =>
    have := ha d rfl
    simp only [Option.map_some, Option.some.injEq]
    omega

/-- Time that ends before the turn brings the turn so much nearer. -/
theorem State.QuietFor.earliest_tick {s : State} {m : Nat} (hv : s.cfg.valid = true) (h : s.QuietFor m) :
    earliest (s.tick m).silenceDue (s.tick m).acousticDue = (earliest s.silenceDue s.acousticDue).map (· - m) := by
  rw [State.silenceDue_tick hv fun d hd => (h.1 d hd).le, State.acousticDue_tick hv fun d hd => (h.2 d hd).le,
    earliest_map_sub]

theorem State.QuietFor.turn_tick {s : State} {m r : Nat} (hv : s.cfg.valid = true) (h : s.QuietFor m) (hr : m < r) :
    (s.tick m).turn (r - m) = s.turn r := by
  unfold State.turn fireDue
  simp only [State.silenceDue_tick hv fun d hd => (h.1 d hd).le, State.acousticDue_tick hv fun d hd => (h.2 d hd).le,
    map_sub_eq_some_iff h.1 hr, map_sub_eq_some_iff h.2 hr, State.tick_tick, Nat.add_sub_cancel' hr.le]

/-- The loop over `a` and then over `b` microseconds is the loop over their sum (40_bus_sampler R140). -/
theorem advanceLoop_add {f g h a b : Nat} {s : State} (hv : s.cfg.valid = true) (hf : s.ac.formed = true) (hl : s.Later)
    (ha : a < f) (hb : b < g) (hab : a + b < h) : advanceLoop g b (advanceLoop f a s) = advanceLoop h (a + b) s := by
  induction f generalizing a h s with
  | zero => exact absurd ha (Nat.not_lt_zero _)
  | succ f ih =>
    obtain ⟨g, rfl⟩ := Nat.exists_eq_succ_of_ne_zero (Nat.ne_zero_of_lt hb)
    obtain ⟨h, rfl⟩ := Nat.exists_eq_succ_of_ne_zero (Nat.ne_zero_of_lt hab)
    rcases s.quietFor_or_turn a with hquiet | ⟨r, hr, hdue⟩
    · rw [advanceLoop_of_quietFor _ hquiet]
      rcases s.quietFor_or_turn (a + b) with hquiet' | ⟨r, hr, hdue⟩
      · rw [advanceLoop_of_quietFor _ hquiet', advanceLoop_of_quietFor _ (hquiet'.tick hv), State.tick_tick]
      · have har : a < r := (earliest_eq_some hdue).1.elim (hquiet.1 r) (hquiet.2 r)
        have hdue' : earliest (s.tick a).silenceDue (s.tick a).acousticDue = some (r - a) := by
          rw [hquiet.earliest_tick hv, hdue, Option.map_some]
        rw [advanceLoop_of_turn _ hdue hr, advanceLoop_of_turn _ hdue' (by omega), hquiet.turn_tick hv har,
          show b - (r - a) = a + b - r by omega]
        exact advanceLoop_fuel_congr (by rwa [State.turn_cfg]) (State.turn_formed hf) (State.turn_later hv hf hdue)
          (by omega) (by omega)
    · have hpos := hl.turn_pos hdue
      rw [advanceLoop_of_turn _ hdue hr, advanceLoop_of_turn _ hdue (by omega), show a + b - r = a - r + b by omega]
      exact ih (by rwa [State.turn_cfg]) (State.turn_formed hf) (State.turn_later hv hf hdue) (by omega) (by omega)

end Sys2Proof.Machine

/-! PROOFS. The invariant (10_state, 93_implementation_defined U15): each operation that a stimulus word carries keeps each
of its parts. -/

namespace Sys2Proof.Machine

open Sys2Proof.Statements

/-! ### The parts of the invariant -/

/-- The invariant but for the deadlines: the parts of it that the passing of time does not touch. -/
structure State.Standing (s : State) : Prop where
  valid : s.cfg.valid = true
  cursors : s.CursorsAgree
  storage : s.StorageCanonical
  ring : s.RingHolds
  request : s.RequestHolds
  waiting : s.WaitingHolds
  life : s.LifeCycle
  window : s.WindowHolds
  press : s.PressHolds
  lights : s.LightsHold

theorem State.inv_iff {s : State} : s.Inv ↔ s.Standing ∧ s.Urgent := by
  constructor
  · rintro ⟨hvalid, hcur, hstore, hring, hreq, hwait, hurgent, hlife, hwin, hpress, hlights⟩
    exact ⟨⟨hvalid, hcur, hstore, hring, hreq, hwait, hlife, hwin, hpress, hlights⟩, hurgent⟩
  · rintro ⟨⟨hvalid, hcur, hstore, hring, hreq, hwait, hlife, hwin, hpress, hlights⟩, hurgent⟩
    exact ⟨hvalid, hcur, hstore, hring, hreq, hwait, hurgent, hlife, hwin, hpress, hlights⟩

/-! Each part reads some sub-blocks only. -/

theorem ringHolds_of_eq {s t : State} (hcfg : t.cfg = s.cfg) (hkb : t.kb = s.kb) (h : s.RingHolds) : t.RingHolds := by
  rwa [State.RingHolds, State.queue, State.kbCount, hcfg, hkb]

theorem requestHolds_of_ac_eq {s t : State} (hac : t.ac = s.ac) (h : s.RequestHolds) : t.RequestHolds := by
  rwa [State.RequestHolds, hac]

theorem waitingHolds_of_ac_eq {s t : State} (hac : t.ac = s.ac) (h : s.WaitingHolds) : t.WaitingHolds := by
  rwa [State.WaitingHolds, hac]

theorem lifeCycle_of_eq {s t : State} (hctl : t.ctl = s.ctl) (hsmp : t.smp = s.smp) (henc : t.enc = s.enc)
    (hac : t.ac = s.ac) (h : s.LifeCycle) : t.LifeCycle := by
  rwa [State.LifeCycle, hctl, hsmp, henc, hac]

theorem windowHolds_of_eq {s t : State} (hsmp : t.smp = s.smp) (henc : t.enc = s.enc) (h : s.WindowHolds) :
    t.WindowHolds := by
  rwa [State.WindowHolds, hsmp, henc]

theorem pressHolds_of_eq {s t : State} (hcfg : t.cfg = s.cfg) (henc : t.enc = s.enc) (halm : t.alm = s.alm)
    (hkb : t.kb = s.kb) (h : s.PressHolds) : t.PressHolds := by
  rwa [State.PressHolds, State.kbCount, State.peek, hcfg, henc, halm, hkb]

theorem lightsHold_of_itp_eq {s t : State} (hitp : t.itp = s.itp) (h : s.LightsHold) : t.LightsHold := by
  rwa [State.LightsHold, hitp]

theorem urgent_of_eq {s t : State} (hcfg : t.cfg = s.cfg) (hctl : t.ctl = s.ctl) (hsmp : t.smp = s.smp)
    (hac : t.ac = s.ac) (h : s.Urgent) : t.Urgent := by
  rwa [State.Urgent, State.elapsed, State.elapsed, hcfg, hctl, hsmp, hac]

/-- Every indicator is the decode of its status bit and its blink bit (44_frame_interpreter R242, R243). -/
def Interpreter.Decoded (p : Interpreter) : Prop :=
  ∀ j : Fin 16, p.ind[j] = light ((p.st.get (BitVec.ofNat 1 (j.val / 8))).getLsbD (j.val % 8))
    ((p.bl.get (BitVec.ofNat 1 (j.val / 8))).getLsbD (j.val % 8))

theorem State.lightsHold_iff {s : State} :
    s.LightsHold ↔ s.itp.Decoded ∧ (s.itp.startup = true → s.itp = Interpreter.reset) := Iff.rfl

theorem State.Standing.formed {s : State} (h : s.Standing) : s.ac.formed = true := formed_of_requests h.request h.waiting

/-! ### Time -/

/-- A silence timeout zeroes the cursors, shuts the response window and touches no request, press or flag
(40_bus_sampler R138). -/
theorem fireSilenceTimeout_standing {s : State} (h : s.Standing) : (fireSilenceTimeout s).Standing := by
  obtain ⟨hbound, hidle, -⟩ := h.life
  have hidle' : s.ctl.running = false →
      s.ac.acType = .none ∧ s.enc.txSrc = .none ∧ false = false ∧ s.smp.frameReady = false := fun hrun => by
    obtain ⟨hac, hsrc, -, hready⟩ := hidle hrun
    exact ⟨hac, hsrc, rfl, hready⟩
  exact { h with
    cursors := cursorsAgree_of_smp_eq_realign (s := s) rfl h.cursors
    life := ⟨hbound, hidle', fun _ => rfl⟩
    window := ⟨fun hopen => (nomatch hopen), fun hkey => (nomatch hkey)⟩ }

/-- A boundary promotes the waiting request, starts the next period of a tone, or ends the request (42_acoustic R198). -/
theorem Acoustic.boundary_cases (now : Time) (a : Acoustic) :
    (a.qValid = true ∧ a.boundary now = { a with
        n := a.qN, interval := a.qInterval, cont := a.qCont, t0 := now,
        qValid := false, qN := 0#8, qInterval := 0#4, qCont := false })
      ∨ (a.qValid = false ∧ a.boundary now = { a with t0 := now })
      ∨ (a.qValid = false ∧ a.boundary now = { a with acType := .none, n := 0#8, interval := 0#4, cont := false }) := by
  unfold Acoustic.boundary
  cases hq : a.qValid with
  | true => exact .inl ⟨rfl, if_pos rfl⟩
  | false =>
    by_cases hty : a.acType = .tone
    · exact .inr (.inl ⟨rfl, by simp [hty]⟩)
    · exact .inr (.inr ⟨rfl, by simp [hty]⟩)

/-- A boundary leaves a legal request, or none; the waiting request that it promotes was legal for the type in flight. -/
theorem fireAcousticBoundary_standing {s : State} (h : s.Standing) : (fireAcousticBoundary s).Standing := by
  obtain ⟨hbound, hidle, hzero⟩ := h.life
  obtain ⟨hwait, hfree⟩ := h.waiting
  suffices hac : (s.withAc (s.ac.boundary s.ctl.now)).RequestHolds ∧ (s.withAc (s.ac.boundary s.ctl.now)).WaitingHolds
      ∧ (s.ac.acType = .none → (s.ac.boundary s.ctl.now).acType = .none) from
    { h with
      request := hac.1
      waiting := hac.2.1
      life := ⟨hbound, fun hrun => ⟨hac.2.2 (hidle hrun).1, (hidle hrun).2⟩, hzero⟩ }
  simp only [State.RequestHolds, State.WaitingHolds, State.withAc_ac]
  rcases s.ac.boundary_cases s.ctl.now with ⟨hq, hb⟩ | ⟨hq, hb⟩ | ⟨hq, hb⟩ <;> rw [hb]
  · obtain ⟨hty, hrange⟩ := hwait hq
    exact ⟨⟨fun hnone => absurd hnone hty, fun _ => hrange⟩, ⟨fun hq => (nomatch hq), fun _ => ⟨rfl, rfl, rfl⟩⟩, id⟩
  · exact ⟨h.request, h.waiting, id⟩
  · refine ⟨⟨fun _ => ⟨rfl, rfl, rfl⟩, fun hty => absurd rfl hty⟩, ⟨fun hq' => ?_, fun _ => hfree hq⟩, fun _ => rfl⟩
    exact absurd (hq.symm.trans hq') (by simp)

theorem fireDue_standing (a b : Option Nat) (r : Nat) {s : State} (h : s.Standing) : (fireDue a b r s).Standing := by
  have hsilence : (if a = some r then fireSilenceTimeout s else s).Standing := by
    split
    · exact fireSilenceTimeout_standing h
    · exact h
  unfold fireDue
  dsimp only
  split
  · exact fireAcousticBoundary_standing hsilence
  · exact hsilence

/-- `ADVANCE` fires every deadline at its own instant, so none is behind when it ends (40_bus_sampler R140, R143). -/
theorem advanceTime_inv (dt : BitVec 24) {s : State} (h : s.Inv) : (advanceTime dt s).Inv := by
  obtain ⟨hs, hurgent⟩ := State.inv_iff.1 h
  have hstanding : (advanceTime dt s).Standing := advanceLoop_induction (P := State.Standing) (fun _ _ ht => { ht with })
    (fun a b r _ ht => fireDue_standing a b r ht) _ _ hs
  have hlater : (advanceTime dt s).Later :=
    advanceLoop_later _ _ hs.valid hs.formed (State.later_iff_urgent.2 hurgent) (by omega)
  exact State.inv_iff.2 ⟨hstanding, State.later_iff_urgent.1 hlater⟩

/-! ### Control -/

theorem reset_decoded : Interpreter.reset.Decoded := by
  unfold Interpreter.Decoded
  decide

theorem reset_ringHolds {c : Config} (hcap : 1 ≤ c.kbCapacity) : (State.resetWith c).RingHolds := by
  have hcount : (State.resetWith c).kbCount = 0 := by
    simp [State.kbCount, KeyBuffer.count, State.resetWith, KeyBuffer.reset]
  have hzero : (0#8).toNat < 2 * c.kbCapacity := by
    rw [BitVec.toNat_ofNat]
    omega
  refine State.ringHolds_iff.2 ⟨⟨hzero, hzero, by omega⟩, fun k hk => ?_⟩
  exact absurd hk (by omega)

/-- `INITIALIZE` leaves everything but `NOW`, the pins and `BOUND` at reset (45_control R271). -/
theorem initialiseBlock_inv (clockPin readPin writePin : Byte) {s : State} (hv : s.cfg.valid = true) :
    (initialiseBlock clockPin readPin writePin s).Inv := by
  obtain ⟨hcap, -⟩ := Config.valid_iff.1 hv
  refine State.inv_iff.2 ⟨?_, fun hrun => (nomatch hrun), fun hty => absurd rfl hty⟩
  exact
    { valid := hv
      cursors := cursorsAgree_of_zero rfl rfl rfl rfl
      storage := ⟨rfl, rfl⟩
      ring := reset_ringHolds hcap
      request := ⟨fun _ => ⟨rfl, rfl, rfl⟩, fun hty => absurd rfl hty⟩
      waiting := ⟨fun hq => (nomatch hq), fun _ => ⟨rfl, rfl, rfl⟩⟩
      life := ⟨fun _ => rfl, fun _ => ⟨rfl, rfl, rfl, rfl⟩, fun _ => rfl⟩
      window := ⟨fun hopen => (nomatch hopen), fun hkey => (nomatch hkey)⟩
      press := ⟨fun hsrc => (nomatch hsrc), fun hsrc => (nomatch hsrc), fun halarm => (nomatch halarm)⟩
      lights := State.lightsHold_iff.2 ⟨reset_decoded, fun _ => rfl⟩ }

/-- `START` arms the countdown now, at the cursors of reset (45_control R272). -/
theorem startBlock_inv (trace : Bool) {s : State} (h : s.Inv) : (startBlock trace s).Inv := by
  unfold startBlock
  split
  · exact h
  · next hgo =>
    obtain ⟨hs, -, hac⟩ := State.inv_iff.1 h
    have hbound : s.ctl.bound = true := by simpa using fun hb => hgo (.inl hb)
    refine State.inv_iff.2 ⟨{ hs with life := ?_ }, fun _ _ => ?_, hac⟩
    · exact ⟨fun _ => hbound, fun hrun => (nomatch hrun), fun harm => (nomatch harm)⟩
    · simp [State.elapsed]

/-! ### The Key Buffer -/

/-- A code of class `Alarm` goes to the alarm slot, which an alarm key being sent occupies (43_key_buffer R221). -/
theorem pushAlarm_standing {code : Byte} {s : State} (hcode : s.cfg.keyClass code = .alarm) (h : s.Standing) :
    (pushAlarm code s).Standing := by
  unfold pushAlarm
  split
  · exact { h with }
  · next hempty =>
    obtain ⟨hfifo, halarm, -⟩ := h.press
    exact { h with press := ⟨hfifo, fun hsrc => absurd (halarm hsrc).1 hempty, fun _ => hcode⟩ }

/-- A buffered key being sent stays the head of the ring (43_key_buffer R221, R223). -/
theorem pushRing_pressHolds (code : Byte) {s : State} (h : s.Standing) : (pushRing code s).PressHolds := by
  obtain ⟨hptr, -⟩ := State.ringHolds_iff.1 h.ring
  obtain ⟨hfifo, halarm⟩ := h.press
  rcases hptr.2.2.lt_or_eq with hfree | hfull
  · refine ⟨fun hsrc => ?_, by simpa using halarm⟩
    rw [pushRing_enc] at hsrc
    obtain ⟨hpos, hkey⟩ := hfifo hsrc
    rw [pushRing_kbCount code h.valid hptr hfree, State.peek_eq_entry,
      pushRing_entry h.storage.1 hptr hfree (Nat.zero_le _), if_neg hpos.ne, pushRing_enc]
    exact ⟨Nat.succ_pos _, hkey⟩
  · rw [pushRing_of_full code hfull]
    exact ⟨hfifo, halarm⟩

theorem pushRing_standing {code : Byte} {s : State} (hcode : s.cfg.keyClass code ≠ .alarm) (h : s.Standing) :
    (pushRing code s).Standing := by
  obtain ⟨hcap, -⟩ := Config.valid_iff.1 h.valid
  have hpush : pushKey code s = pushRing code s := if_neg hcode
  exact
    { valid := by rw [pushRing_cfg]; exact h.valid
      cursors := cursorsAgree_of_smp_eq (pushRing_smp s code) h.cursors
      storage := hpush ▸ pushKey_storageCanonical code hcap h.storage
      ring := pushRing_ringHolds h.valid h.storage.1 hcode h.ring
      request := requestHolds_of_ac_eq (pushRing_ac s code) h.request
      waiting := waitingHolds_of_ac_eq (pushRing_ac s code) h.waiting
      life := lifeCycle_of_eq (pushRing_ctl s code) (pushRing_smp s code) (pushRing_enc s code) (pushRing_ac s code) h.life
      window := windowHolds_of_eq (pushRing_smp s code) (pushRing_enc s code) h.window
      press := pushRing_pressHolds code h
      lights := lightsHold_of_itp_eq (pushRing_itp s code) h.lights }

theorem pushKey_inv (code : Byte) {s : State} (h : s.Inv) : (pushKey code s).Inv := by
  obtain ⟨hs, hurgent⟩ := State.inv_iff.1 h
  refine State.inv_iff.2 ⟨?_, urgent_of_eq (pushKey_cfg s code) (pushKey_ctl s code) (pushKey_smp s code)
    (pushKey_ac s code) hurgent⟩
  unfold pushKey
  split
  · next hcode => exact pushAlarm_standing hcode hs
  · next hcode => exact pushRing_standing hcode hs

/-! ### Acoustic requests -/

theorem clamp_ne_zero {v max : Byte} (hv : v ≠ 0#8) (hmax : max ≠ 0#8) : clamp v max ≠ 0#8 := by
  unfold clamp; split <;> assumption

theorem clamp_toNat_le (v max : Byte) : (clamp v max).toNat ≤ max.toNat := by
  unfold clamp
  split
  · exact le_rfl
  · next hle => exact BitVec.not_lt.1 hle

/-- A request as `ac_accept` takes it is legal (30_encoding R108, 42_acoustic R195). -/
def Request.Legal (r : Request) : Prop := r.acType ≠ .none ∧ RequestInRange r.acType r.n r.interval r.cont

theorem beepRequest_legal {count : Byte} {r : Request} (h : beepRequest count = some r) : r.Legal := by
  unfold beepRequest at h
  split at h
  · cases h
  · next hcount =>
    cases h
    exact ⟨by simp, clamp_ne_zero hcount (by decide), fun _ => clamp_toNat_le count 128#8, by simp, by simp⟩

theorem toneRequest_legal {count interval : Byte} {continuous : Bool} {r : Request}
    (h : toneRequest count continuous interval = some r) : r.Legal := by
  unfold toneRequest at h
  split at h
  · cases h
  · next hzero =>
    obtain ⟨hcount, hinterval⟩ := not_or.1 hzero
    cases h
    have hsmall := clamp_toNat_le interval 15#8
    have hint : (clamp interval 15#8).setWidth 4 ≠ 0#4 := fun heq => by
      have := congrArg BitVec.toNat heq
      refine clamp_ne_zero hinterval (by decide : (15#8 : Byte) ≠ 0#8) (BitVec.eq_of_toNat_eq ?_)
      simp only [BitVec.toNat_setWidth, BitVec.toNat_ofNat] at this hsmall ⊢
      omega
    exact ⟨by simp, clamp_ne_zero hcount (by decide), by simp, fun _ => ⟨clamp_toNat_le count 7#8, hint⟩, by simp⟩

theorem buzzerRequest_legal {duration : Byte} {r : Request} (h : buzzerRequest duration = some r) : r.Legal := by
  unfold buzzerRequest at h
  split at h
  · cases h
  · next hduration =>
    cases h
    exact ⟨by simp, hduration, by simp, by simp, by simp⟩

/-- A request of the type in flight waits, one of another type starts now (42_acoustic R194). -/
theorem acAccept_inv {r : Request} {s : State} (hr : r.Legal) (h : s.Inv) : (acAccept r s).Inv := by
  obtain ⟨hty, hrange⟩ := hr
  obtain ⟨hs, hsil, hac⟩ := State.inv_iff.1 h
  obtain ⟨hbound, -, hzero⟩ := hs.life
  unfold acAccept
  split
  · next hrun =>
    have hidle : ∀ {p : Prop}, s.ctl.running = false → p := fun hno => absurd (hrun.symm.trans hno) (by simp)
    split
    · next hsame =>
      refine State.inv_iff.2 ⟨{ hs with waiting := ?_ }, hsil, hac⟩
      exact ⟨fun _ => ⟨hsame ▸ hty, hsame ▸ hrange⟩, fun hq => (nomatch hq)⟩
    · have hstarted : (s.withAc (.begin s.ctl.now r)).Standing :=
        { hs with
          request := ⟨fun hnone => absurd hnone hty, fun _ => hrange⟩
          waiting := ⟨fun hq => (nomatch hq), fun _ => ⟨rfl, rfl, rfl⟩⟩
          life := ⟨hbound, hidle, hzero⟩ }
      refine State.inv_iff.2 ⟨hstarted, hsil, fun _ => ?_⟩
      have hpos : 0 < (Acoustic.begin s.ctl.now r).length s.cfg := Acoustic.length_pos hs.valid hstarted.formed hty
      simpa [State.elapsed, Acoustic.begin] using hpos
  · exact h

theorem acRequest_inv {r : Option Request} {s : State} (hr : ∀ x, r = some x → x.Legal) (h : s.Inv) :
    (acRequest r s).Inv := by
  cases r with
  | none => exact h
  | some x => exact acAccept_inv (hr x rfl) h

/-! ### Lights -/

/-- An indicator decodes its pair of bits after an update: it is rewritten, or the pair has not changed
(44_frame_interpreter R243). -/
theorem refresh_eq_light (seed : Bool) {previous current : Bool × Bool} {old : Indicator}
    (h : old = light previous.1 previous.2) : refresh seed previous current old = light current.1 current.2 := by
  unfold refresh
  split
  · rfl
  · split
    · rfl
    · next hsame => rw [h, not_not.1 hsame]

theorem applyLights_decoded (g : BitVec 1) (isBlink : Bool) (v : Byte) {p : Interpreter} (h : p.Decoded) :
    (p.applyLights g isBlink v).Decoded := by
  intro j
  have hj := h j
  simp only [Interpreter.applyLights, Fin.getElem_fin, Vector.getElem_ofFn]
  split
  · next hgroup =>
    have hidx : BitVec.ofNat 1 (j.val / 8) = g := BitVec.eq_of_toNat_eq (by
      rw [BitVec.toNat_ofNat, hgroup, Nat.mod_eq_of_lt g.isLt])
    rw [hidx] at hj
    rw [hidx, BytePair.get_set_same, BytePair.get_set_same]
    exact refresh_eq_light _ hj
  · next hgroup =>
    have hidx : g ≠ BitVec.ofNat 1 (j.val / 8) := by
      rintro rfl
      rw [BitVec.toNat_ofNat] at hgroup
      omega
    rw [BytePair.get_set_other _ _ hidx, BytePair.get_set_other _ _ hidx]
    exact hj

theorem lights_decoded (r : Route) (c1 : Byte) {p : Interpreter} (h : p.Decoded) : (p.lights r c1).Decoded := by
  unfold Interpreter.lights
  split
  · exact h
  · exact applyLights_decoded _ _ _ h

theorem echo_decoded (idle m0 : Byte) {p : Interpreter} (h : p.Decoded) : (p.echo idle m0).Decoded := by
  unfold Interpreter.echo
  split <;> exact h

/-- A frame consumed leaves every indicator decoded, and ends the start-up (44_frame_interpreter R241). -/
theorem consumeFrame_inv {s : State} (h : s.Inv) : (consumeFrame s).Inv := by
  obtain ⟨hs, hurgent⟩ := State.inv_iff.1 h
  obtain ⟨hbound, hidle, hzero⟩ := hs.life
  obtain ⟨hdecoded, -⟩ := State.lightsHold_iff.1 hs.lights
  have hdecoded' : (interpretFrame s).Decoded :=
    echo_decoded _ _ (lights_decoded _ _ (show Interpreter.Decoded { s.itp with indChanged := 0 } from hdecoded))
  have hidle' : s.ctl.running = false →
      s.ac.acType = .none ∧ s.enc.txSrc = .none ∧ s.smp.silArmed = false ∧ false = false := fun hrun => by
    obtain ⟨hac, hsrc, harm, -⟩ := hidle hrun
    exact ⟨hac, hsrc, harm, rfl⟩
  refine State.inv_iff.2 ⟨{ hs with life := ⟨hbound, hidle', hzero⟩, lights := ?_ }, hurgent⟩
  exact State.lightsHold_iff.2 ⟨hdecoded', fun hstart => (nomatch hstart)⟩

theorem pollFrame_inv {s : State} (h : s.Inv) : (pollFrame s).1.Inv := by
  rw [pollFrame_fst]
  split
  · exact consumeFrame_inv h
  · exact h

theorem clearKey_inv {s : State} (h : s.Inv) : (clearKey s).Inv := by
  obtain ⟨hs, hurgent⟩ := State.inv_iff.1 h
  obtain ⟨hdecoded, hreset⟩ := hs.lights
  have hreset' : s.itp.startup = true → (clearKey s).itp = Interpreter.reset := fun hstart => by
    rw [clearKey, State.withItp_itp, hreset hstart]
    rfl
  exact State.inv_iff.2 ⟨{ hs with lights := ⟨hdecoded, hreset'⟩ }, hurgent⟩

theorem clearOverflow_inv (clear : Bool) {s : State} (h : s.Inv) : (clearOverflow clear s).Inv := by
  unfold clearOverflow
  split <;> exact h

/-! ### Edges -/

/-- A press ends with a pop or with the issue of the alarm key, or goes on (41_key_encoder R165). -/
theorem retireKey_pressHolds {s : State} (h : s.PressHolds) : (retireKey s).PressHolds := by
  have ⟨_, _, hslot⟩ := h
  unfold retireKey
  split
  · exact ⟨fun hsrc => (nomatch hsrc), fun hsrc => (nomatch hsrc), by simpa [endPress] using hslot⟩
  · split
    · exact ⟨fun hsrc => (nomatch hsrc), fun hsrc => (nomatch hsrc), fun hdet => (nomatch hdet)⟩
    · exact h

theorem encEven_pressHolds {s : State} (h : s.PressHolds) : (encEven s).PressHolds := by
  unfold encEven
  split
  · exact retireKey_pressHolds (s := releaseKey s) h
  · exact h

/-- A press begins with the alarm key that may be taken or with the head of the ring (41_key_encoder R162). -/
theorem selectKey_pressHolds {s : State} (h : s.PressHolds) : (selectKey s).PressHolds := by
  have hchosen : (s.withEnc s.chooseKey).PressHolds := by
    unfold State.chooseKey
    split
    · split
      · next hready =>
        have hready' : s.alm.detected = true ∧ s.alm.respPending = false := by simpa [AlarmPath.ready] using hready
        exact ⟨fun hsrc => (nomatch hsrc), fun _ => ⟨hready'.1, hready'.2, rfl⟩, h.2.2⟩
      · split
        · next hpos => exact ⟨fun _ => ⟨hpos, rfl⟩, fun hsrc => (nomatch hsrc), h.2.2⟩
        · exact h
    · exact h
  exact hchosen

theorem encOdd_pressHolds {s : State} (h : s.PressHolds) : (encOdd s).PressHolds := by
  unfold encOdd
  split
  · exact selectKey_pressHolds h
  · exact h

/-- The alarm check only ever clears the pending response (41_key_encoder R168). -/
theorem completeFrame_pressHolds {s : State} (h : s.PressHolds) : (completeFrame s).PressHolds := by
  obtain ⟨hfifo, halarm, hslot⟩ := h
  have hacked : (alarmAckCheck (s.withSmp s.smp.capture)).PressHolds := by
    unfold alarmAckCheck
    split
    · exact ⟨hfifo, fun hsrc => ⟨(halarm hsrc).1, rfl, (halarm hsrc).2.2⟩, hslot⟩
    · exact ⟨hfifo, halarm, hslot⟩
  unfold completeFrame
  split
  · exact hacked
  · exact ⟨hfifo, halarm, hslot⟩

theorem clockEdge_pressHolds (data : Bool) {s : State} (h : s.PressHolds) : (clockEdge data s).PressHolds := by
  cases hrun : s.ctl.running with
  | false => rwa [clockEdge_idle data hrun]
  | true =>
    rcases Nat.mod_two_eq_zero_or_one s.smp.cyc.toNat with heven | hodd
    · rw [clockEdge_panel data hrun heven]
      exact encEven_pressHolds (s := stampEdge s) h
    · have hpress : (sampleModule data (encOdd (stampEdge s))).PressHolds :=
        pressHolds_of_eq (sampleModule_cfg _ _) (sampleModule_enc _ _) (sampleModule_alm _ _) (sampleModule_kb _ _)
          (encOdd_pressHolds (s := stampEdge s) h)
      rw [clockEdge_module data hrun hodd]
      exact pressHolds_of_eq (nextCycle_cfg _) (nextCycle_enc _) (nextCycle_alm _) (nextCycle_kb _)
        (completeFrame_pressHolds hpress)

/-- An edge taken moves `CYC` on (40_bus_sampler R131). -/
theorem clockEdge_cyc (data : Bool) {s : State} (hrun : s.ctl.running = true) :
    (clockEdge data s).smp.cyc = s.smp.cyc + 1#5 := by
  rcases Nat.mod_two_eq_zero_or_one s.smp.cyc.toNat with heven | hodd
  · rw [clockEdge_panel_smp data hrun heven]
  · by_cases hlast : s.smp.bitCnt + 1#5 = s.smp.expBits
    · rw [clockEdge_last_smp data hrun hodd hlast]
    · rw [clockEdge_module_smp data hrun hodd hlast]

/-- A panel edge that closes no window releases `WR_KEY` and changes nothing else in the encoder (41_key_encoder R164). -/
theorem encEven_of_open {s : State} (h : ¬ (s.smp.bitCnt = 8#5 ∧ s.enc.txWindow = true)) : encEven s = releaseKey s :=
  if_neg h

theorem encEven_of_close {s : State} (h : s.smp.bitCnt = 8#5 ∧ s.enc.txWindow = true) :
    encEven s = closeWindow (releaseKey s) := if_pos h

theorem retireKey_wrKey (s : State) : (retireKey s).enc.wrKey = s.enc.wrKey := by
  unfold retireKey
  split
  · simp [endPress]
  · split <;> rfl

theorem encEven_wrKey (s : State) : (encEven s).enc.wrKey = false := by
  unfold encEven
  split
  · exact retireKey_wrKey (releaseKey s)
  · rfl

/-- A window that is open after the encoder's action at a module edge has a press, and was opened at bit position 0 or
before (41_key_encoder R161, R162). -/
theorem encOdd_txWindow {s : State} (h : (encOdd s).enc.txWindow = true) :
    (encOdd s).enc.txSrc ≠ .none ∧ s.smp.bitCnt = 0#5 ∨ (encOdd s).enc.txSrc = s.enc.txSrc ∧ s.enc.txWindow = true := by
  unfold encOdd at h ⊢
  split at h
  · next hfirst =>
    rw [if_pos hfirst]
    exact .inl ⟨of_decide_eq_true h, hfirst⟩
  · next hlater =>
    rw [if_neg hlater]
    exact .inr ⟨rfl, h⟩

theorem encOdd_wrKey {s : State} (h : (encOdd s).enc.wrKey = true) : (encOdd s).enc.txWindow = true := by
  unfold encOdd driveKey at h ⊢
  simp only [State.withEnc_enc, Encoder.drive, Bool.and_eq_true] at h ⊢
  exact h.1.2

theorem clockEdge_panel_enc (data : Bool) {s : State} (hrun : s.ctl.running = true) (heven : s.smp.cyc.toNat % 2 = 0) :
    (clockEdge data s).enc = (encEven (stampEdge s)).enc := by
  rw [clockEdge_panel data hrun heven, samplePanel_enc]

theorem clockEdge_module_enc (data : Bool) {s : State} (hrun : s.ctl.running = true) (hodd : s.smp.cyc.toNat % 2 = 1) :
    (clockEdge data s).enc = (encOdd (stampEdge s)).enc := by
  rw [clockEdge_module data hrun hodd, nextCycle_enc, completeFrame_enc, sampleModule_enc]

/-- A window opens at the edge taken at `CYC = 1` and is shut at the edge taken at `CYC = 16` (41_key_encoder R160). -/
theorem clockEdge_windowHolds (data : Bool) {s : State} (hrun : s.ctl.running = true) (hcur : s.CursorsAgree)
    (h : s.WindowHolds) : (clockEdge data s).WindowHolds := by
  obtain ⟨-, hbit, -⟩ := hcur
  obtain ⟨hopen, -⟩ := h
  have hlt := s.smp.cyc.isLt
  have hcyc : (s.smp.cyc + 1#5).toNat = (s.smp.cyc.toNat + 1) % 32 := BitVec.toNat_add _ _
  rw [State.WindowHolds, clockEdge_cyc data hrun, hcyc]
  rcases Nat.mod_two_eq_zero_or_one s.smp.cyc.toNat with heven | hodd
  · rw [clockEdge_panel_enc data hrun heven]
    refine ⟨fun hwin => ?_, fun hkey => absurd (hkey.symm.trans (encEven_wrKey _)) (by simp)⟩
    by_cases hclose : (stampEdge s).smp.bitCnt = 8#5 ∧ (stampEdge s).enc.txWindow = true
    · rw [encEven_of_close hclose] at hwin
      cases hwin
    · rw [encEven_of_open hclose] at hwin ⊢
      obtain ⟨hsrc, hlo, hhi⟩ := hopen hwin
      have hne : s.smp.bitCnt.toNat ≠ 8 := fun h8 => hclose ⟨BitVec.eq_of_toNat_eq h8, hwin⟩
      exact ⟨hsrc, by omega, by omega⟩
  · rw [clockEdge_module_enc data hrun hodd]
    have hwindow : (encOdd (stampEdge s)).enc.txWindow = true → (encOdd (stampEdge s)).enc.txSrc ≠ .none
        ∧ 2 ≤ (s.smp.cyc.toNat + 1) % 32 ∧ (s.smp.cyc.toNat + 1) % 32 ≤ 16 := fun hwin => by
      rcases encOdd_txWindow hwin with ⟨hsrc, hfirst⟩ | ⟨hsrc, hbefore⟩
      · have hzero : s.smp.bitCnt.toNat = 0 := congrArg BitVec.toNat hfirst
        exact ⟨hsrc, by omega, by omega⟩
      · obtain ⟨hsrc', hlo, hhi⟩ := hopen hbefore
        exact ⟨hsrc ▸ hsrc', by omega, by omega⟩
    exact ⟨hwindow, fun hkey => ⟨encOdd_wrKey hkey, by omega⟩⟩

theorem clockEdge_ringHolds (data : Bool) {s : State} (hv : s.cfg.valid = true) (h : s.RingHolds) :
    (clockEdge data s).RingHolds := by
  rcases clockEdge_kb data s with hkb | hkb
  · exact ringHolds_of_eq (clockEdge_cfg s data) hkb h
  · exact ringHolds_of_eq (s := popKey s) (by simp) hkb (popKey_ringHolds hv h)

/-- An edge taken keeps each part: it restarts the countdown now and leaves the acoustic registers and the lights alone. -/
theorem clockEdge_inv (data : Bool) {s : State} (h : s.Inv) : (clockEdge data s).Inv := by
  cases hrun : s.ctl.running with
  | false => rwa [clockEdge_idle data hrun]
  | true =>
    obtain ⟨hs, -, hac⟩ := State.inv_iff.1 h
    obtain ⟨hbound, -, -⟩ := hs.life
    obtain ⟨hstamp, harm⟩ := clockEdge_stamps data hrun
    refine State.inv_iff.2 ⟨?_, fun _ _ => ?_, ?_⟩
    · exact
        { valid := by rw [clockEdge_cfg]; exact hs.valid
          cursors := clockEdge_cursorsAgree data hs.cursors
          storage := storageCanonical_of_eq (clockEdge_cfg s data) (clockEdge_mem data s) hs.storage
          ring := clockEdge_ringHolds data hs.valid hs.ring
          request := requestHolds_of_ac_eq (clockEdge_ac s data) hs.request
          waiting := waitingHolds_of_ac_eq (clockEdge_ac s data) hs.waiting
          life := by
            rw [State.LifeCycle, clockEdge_ctl, hrun, harm]
            exact ⟨fun _ => hbound hrun, fun hrun => (nomatch hrun), fun harm => (nomatch harm)⟩
          window := clockEdge_windowHolds data hrun hs.cursors hs.window
          press := clockEdge_pressHolds data hs.press
          lights := lightsHold_of_itp_eq (clockEdge_itp s data) hs.lights }
    · rw [State.elapsed, hstamp, clockEdge_ctl, BitVec.sub_self]
      exact Nat.zero_le _
    · rwa [State.elapsed, clockEdge_ctl, clockEdge_ac, clockEdge_cfg]

/-! ### One step -/

/-- Every operation that a stimulus word carries keeps the invariant; of the internal ones, a `FRAME_COMPLETE` in the middle
of a frame or a `POP` in the middle of a press would not. -/
theorem effectOf_inv {i : Instr} (hi : i.wellFormed = true) {s : State} (h : s.Inv) : (effectOf i s).1.Inv := by
  cases i with
  | initialise clockPin readPin writePin => exact initialiseBlock_inv clockPin readPin writePin h.1
  | start trace => exact startBlock_inv trace h
  | poll => exact pollFrame_inv h
  | push code => exact pushKey_inv code h
  | reqBeep count => exact acRequest_inv (fun _ => beepRequest_legal) h
  | reqTone count continuous interval => exact acRequest_inv (fun _ => toneRequest_legal) h
  | reqBuzzer duration => exact acRequest_inv (fun _ => buzzerRequest_legal) h
  | keyRead | frameRead | indRead => exact h
  | keyClear => exact clearKey_inv h
  | ovfRead clear => exact clearOverflow_inv clear h
  | clockEdge data => exact clockEdge_inv data h
  | advance dt => exact advanceTime_inv dt h
  | silenceTimeout | acousticBoundary | frameComplete | pop => cases hi

/-- Settles O55: a step idles, takes a reserved word or runs an injectable operation, and each of these keeps every part of
the invariant. -/
theorem stepKeepsTheInvariant : Obligations.StepKeepsTheInvariant := by
  intro s t hs hstep
  rcases step_cases hstep with ⟨-, rfl⟩ | ⟨w, r, -, -, hres⟩ | ⟨w, i, -, hdec, hexec⟩
  · exact hs
  · rw [reservedWord_eq_next hres]
    exact hs
  · obtain ⟨-, -, rfl⟩ := exec_eq_next.1 hexec
    exact effectOf_inv (wellFormed_of_decodeStimulus hdec) (s := s.dropWord.withFired []) hs

end Sys2Proof.Machine

/-! PROOFS. Bus Sampler (40_bus_sampler): `CLOCK_EDGE`, `FRAME_COMPLETE` and `SILENCE_TIMEOUT` as whole next states, and
where `FRAME_READY` comes from. -/

namespace Sys2Proof.Machine

open Sys2Proof.Statements

/-! ### Operations that complete -/

/-- In a ready state an operation answers its effect on the state with an empty log. -/
theorem exec_of_ready {s : State} (h : s.Ready) (i : Instr) : exec i s = .next (finish (effectOf i (s.withFired []))) :=
  exec_eq_next.2 ⟨h.1, h.2, rfl⟩

/-- An operation of which an operand is read from the word (30_encoding R103). -/
theorem encodes_of_reread {op : Nat} {mk : Nat → Instr} {i : Instr} (hi : i.wellFormed = true) (hop : i.opcode.toNat = op)
    (hmk : ∀ w : Word, i.reread w = mk w.toNat) : Encodes op mk := by
  intro w hw
  have hdec : decode w = .ok (i.reread w) :=
    decode_of_opField (BitVec.eq_of_toNat_eq (by rw [opField_toNat, hw, hop]))
  rw [← hmk w]
  exact decodeStimulus_eq_ok_iff.2 ⟨hdec, by rw [Instr.wellFormed_reread, hi]⟩

/-- Settles O12: an edge has no effect while the block is not running. -/
theorem edgeBeforeStartChangesNothing : Obligations.EdgeBeforeStartChangesNothing := by
  intro s data hready hrun
  rw [exec_of_ready hready, effectOf, silent, clockEdge_idle data (s := s.withFired []) hrun]
  rfl

/-! ### The hand-off of a frame -/

/-- The pending response is cleared if it is acknowledged, and is kept otherwise (41_key_encoder R168). -/
theorem pendingAfter_eq (s : State) : pendingAfter s s.smp.cmdFrame.b0 s.smp.cmdFrame.b1 =
    if s.alarmAcked then false else s.alm.respPending := by
  unfold pendingAfter State.alarmAcked State.elapsed
  rw [Bool.and_assoc]
  cases s.alm.respPending with
  | false => simp
  | true => simp only [Bool.true_and, Bool.if_false_left, Bool.and_true, Bool.decide_eq_true]

/-- The alarm check writes the pending response only (41_key_encoder R168). -/
theorem alarmAckCheck_eq (s : State) : alarmAckCheck s =
    s.withAlm { s.alm with respPending := pendingAfter s s.smp.cmdFrame.b0 s.smp.cmdFrame.b1 } := by
  rw [alarmAckCheck, pendingAfter_eq]
  split <;> rfl

/-- `FRAME_COMPLETE` as a whole (40_bus_sampler R135). -/
theorem fireFrameComplete_eq (s : State) : fireFrameComplete s =
    { s with
      smp := { s.smp with cmdFrame := s.smp.cmdSr, modFrame := s.smp.modSr, frameReady := true, bitCnt := 0#5,
                          byteIdx := 0#1 },
      alm := { s.alm with respPending := pendingAfter s s.smp.cmdSr.b0 s.smp.cmdSr.b1 },
      fired := s.fired ++ [.frameComplete s.ctl.now] } := by
  rw [fireFrameComplete, alarmAckCheck_eq]
  rfl

/-- Settles O17: the hand-off, and the alarm check on the frame handed over. -/
theorem frameCompleteHandsOverFourBytes : Obligations.FrameCompleteHandsOverFourBytes := by
  intro s hready
  rw [exec_of_ready hready, effectOf, silent, fireFrameComplete_eq]
  rfl

/-- Settles O18: a timeout realigns the sampler and releases the line, and writes no more. -/
theorem silenceTimeoutRealignsTheCursors : Obligations.SilenceTimeoutRealignsTheCursors := by
  intro s hready
  rw [exec_of_ready hready]
  rfl

/-! ### Edges -/

/-- The edge of a panel window that closes no response window, as a whole (40_bus_sampler R131, 41_key_encoder R164). -/
theorem clockEdge_panel_eq (data : Bool) {s : State} (hrun : s.ctl.running = true) (heven : s.smp.cyc.toNat % 2 = 0)
    (hopen : ¬ (s.smp.bitCnt = 8#5 ∧ s.enc.txWindow = true)) : clockEdge data s =
    { s with
      smp := { stamped s with
        cmdSr := s.smp.cmdSr.set s.smp.byteIdx (shifted (s.smp.cmdSr.get s.smp.byteIdx) data),
        cyc := s.smp.cyc + 1#5 },
      enc := { s.enc with wrKey := false } } := by
  rw [clockEdge_panel data hrun heven, encEven_of_open (s := stampEdge s) hopen, samplePanel, shiftIn_eq_ofNat]
  rfl

/-- The encoder's action in a module window writes its latches only (41_key_encoder R161). -/
theorem encOdd_eq (s : State) : encOdd s = s.withEnc (encOdd s).enc := by
  unfold encOdd
  split <;> rfl

/-- The edge of a module window up to the hand-off, as a whole (40_bus_sampler R131). -/
theorem sampleModule_encOdd_eq (data : Bool) (s : State) : sampleModule data (encOdd (stampEdge s)) =
    { s with
      smp := { stamped s with
        modSr := moduleBytes s data,
        bitCnt := s.smp.bitCnt + 1#5,
        byteIdx := if (s.smp.bitCnt.toNat + 1) % 8 = 0 then s.smp.byteIdx + 1#1 else s.smp.byteIdx },
      enc := (encOdd (stampEdge s)).enc } := by
  have hbyte : (s.smp.bitCnt + 1#5).toNat % 8 = (s.smp.bitCnt.toNat + 1) % 8 := by
    rw [BitVec.toNat_add]
    exact Nat.mod_mod_of_dvd _ (by decide)
  rw [← hbyte, encOdd_eq, sampleModule, shiftIn_eq_ofNat]
  rfl

/-- The sample of a module window fills the frame if it makes `BIT_CNT` reach `EXP_BITS` (40_bus_sampler R131). -/
theorem sampleModule_encOdd_full_iff (data : Bool) (s : State) :
    (sampleModule data (encOdd (stampEdge s))).smp.bitCnt = (sampleModule data (encOdd (stampEdge s))).smp.expBits
      ↔ s.smp.bitCnt + 1#5 = s.smp.expBits := by
  rw [sampleModule_encOdd_eq]
  exact Iff.rfl

/-- The edge of a module window that does not complete the frame, as a whole (40_bus_sampler R131). -/
theorem clockEdge_module_eq (data : Bool) {s : State} (hrun : s.ctl.running = true) (hodd : s.smp.cyc.toNat % 2 = 1)
    (hmid : s.smp.bitCnt + 1#5 ≠ s.smp.expBits) : clockEdge data s =
    { s with
      smp := { stamped s with
        modSr := moduleBytes s data,
        bitCnt := s.smp.bitCnt + 1#5,
        byteIdx := if (s.smp.bitCnt.toNat + 1) % 8 = 0 then s.smp.byteIdx + 1#1 else s.smp.byteIdx,
        cyc := s.smp.cyc + 1#5 },
      enc := (encOdd (stampEdge s)).enc } := by
  rw [clockEdge_module data hrun hodd, completeFrame, if_neg (mt (sampleModule_encOdd_full_iff data s).1 hmid),
    sampleModule_encOdd_eq]
  rfl

/-- The edge that completes the frame, as a whole (40_bus_sampler R131, R135; 41_key_encoder R168). -/
theorem clockEdge_last_eq (data : Bool) {s : State} (hrun : s.ctl.running = true) (hodd : s.smp.cyc.toNat % 2 = 1)
    (hlast : s.smp.bitCnt + 1#5 = s.smp.expBits) : clockEdge data s =
    { s with
      smp := { stamped s with
        modSr := moduleBytes s data,
        cmdFrame := s.smp.cmdSr, modFrame := moduleBytes s data, frameReady := true,
        bitCnt := 0#5, byteIdx := 0#1, cyc := s.smp.cyc + 1#5 },
      alm := { s.alm with respPending := pendingAfter s s.smp.cmdSr.b0 s.smp.cmdSr.b1 },
      enc := (encOdd (stampEdge s)).enc,
      fired := s.fired ++ [.frameComplete s.ctl.now] } := by
  rw [clockEdge_module data hrun hodd, completeFrame, if_pos ((sampleModule_encOdd_full_iff data s).2 hlast),
    fireFrameComplete_eq, sampleModule_encOdd_eq]
  rfl

/-- Settles O13: the encoder releases the line, and the sampler shifts the sample in. -/
theorem panelEdgeShiftsTheCommandByte : Obligations.PanelEdgeShiftsTheCommandByte := by
  refine ⟨encodes_of_reread (i := .clockEdge false) rfl rfl fun w => ?_, fun s data hready hrun heven hopen => ?_⟩
  · rw [Instr.reread, bitOperand, aField_getLsbD]
    rfl
  · rw [exec_of_ready hready, effectOf, silent, clockEdge_panel_eq data (s := s.withFired []) hrun heven hopen]
    rfl

/-- Settles O14: the encoder writes its latches, and the sampler shifts the sample in. -/
theorem moduleEdgeShiftsTheModuleByte : Obligations.ModuleEdgeShiftsTheModuleByte := by
  intro s data hready hrun hodd hmid
  refine completes_iff.2 ⟨hready, ?_⟩
  rw [effectOf, silent, clockEdge_module_eq data (s := s.withFired []) hrun hodd hmid]
  rfl

/-- Settles O15: the sample is shifted in before the hand-off, so the frame holds it. -/
theorem lastEdgeCompletesTheFrame : Obligations.LastEdgeCompletesTheFrame := by
  intro s data hready hrun hodd hlast
  refine completes_iff.2 ⟨hready, ?_⟩
  rw [effectOf, silent, clockEdge_last_eq data (s := s.withFired []) hrun hodd hlast]
  rfl

/-! ### Where `FRAME_READY` comes from -/

/-- An edge raises `FRAME_READY` only if it completes the frame (40_bus_sampler R136). -/
theorem clockEdge_last_of_frameReady {data : Bool} {s : State} (hlow : s.smp.frameReady = false)
    (hhigh : (clockEdge data s).smp.frameReady = true) :
    s.ctl.running = true ∧ s.smp.cyc.toNat % 2 = 1 ∧ s.smp.bitCnt + 1#5 = s.smp.expBits := by
  have hkept : (clockEdge data s).smp.frameReady ≠ s.smp.frameReady := by simp [hlow, hhigh]
  cases hrun : s.ctl.running with
  | false => exact absurd (by rw [clockEdge_idle data hrun]) hkept
  | true =>
    rcases Nat.mod_two_eq_zero_or_one s.smp.cyc.toNat with heven | hodd
    · exact absurd (by rw [clockEdge_panel_smp data hrun heven]; rfl) hkept
    · by_cases hlast : s.smp.bitCnt + 1#5 = s.smp.expBits
      · exact ⟨rfl, hodd, hlast⟩
      · exact absurd (by rw [clockEdge_module_smp data hrun hodd hlast]; rfl) hkept

/-- With agreeing cursors the edge that completes the frame is the one taken at `CYC = 31` (40_bus_sampler R131). -/
theorem cyc_of_last {s : State} (hcur : s.CursorsAgree) (hodd : s.smp.cyc.toNat % 2 = 1)
    (hlast : s.smp.bitCnt + 1#5 = s.smp.expBits) : s.smp.cyc = 31#5 := by
  obtain ⟨hexp, hbit, -⟩ := hcur
  have hnat := congrArg BitVec.toNat hlast
  have hlt := s.smp.cyc.isLt
  apply BitVec.eq_of_toNat_eq
  rw [BitVec.toNat_add, hexp] at hnat
  simp only [BitVec.toNat_ofNat] at hnat ⊢
  omega

/-- Of the operations that a stimulus word carries, only an edge can raise `FRAME_READY` (40_bus_sampler R136). -/
theorem clockEdge_of_frameReady {i : Instr} (hi : i.wellFormed = true) {s : State} (hlow : s.smp.frameReady = false)
    (hhigh : (effectOf i s).1.smp.frameReady = true) : ∃ data, i = .clockEdge data := by
  suffices hkeeps : (∀ data, i ≠ .clockEdge data) → (effectOf i s).1.smp.frameReady = false by
    by_contra hne
    exact absurd ((hkeeps fun data heq => hne ⟨data, heq⟩).symm.trans hhigh) (by simp)
  intro hedge
  cases i with
  | initialise => rfl
  | start trace =>
    simp only [effectOf, silent_fst, startBlock]
    split <;> exact hlow
  | poll =>
    rw [effectOf, pollFrame_fst, hlow]
    exact hlow
  | advance dt => rcases advanceTime_smp dt s with hsmp | hsmp <;> exact (congrArg Sampler.frameReady hsmp).trans hlow
  | clockEdge data => exact absurd rfl (hedge data)
  | silenceTimeout | acousticBoundary | frameComplete | pop => cases hi
  | _ => simpa [effectOf] using hlow

/-- Settles O19: the hand-off of the last edge is the only place that raises the flag. -/
theorem readyOnlyByACompletedFrame : Obligations.ReadyOnlyByACompletedFrame := by
  intro s t hcur hstep hlow hhigh
  rcases step_cases hstep with ⟨-, rfl⟩ | ⟨w, r, -, -, hres⟩ | ⟨w, i, hword, hdec, hexec⟩
  · exact absurd (hlow.symm.trans hhigh) (by simp)
  · rw [reservedWord_eq_next hres] at hhigh
    exact absurd (hlow.symm.trans hhigh) (by simp)
  · obtain ⟨-, -, rfl⟩ := exec_eq_next.1 hexec
    obtain ⟨data, rfl⟩ :=
      clockEdge_of_frameReady (wellFormed_of_decodeStimulus hdec) (s := s.dropWord.withFired []) hlow hhigh
    obtain ⟨hrun, hodd, hlast⟩ := clockEdge_last_of_frameReady (s := s.dropWord.withFired []) hlow hhigh
    rw [effectOf, silent, clockEdge_last_eq data (s := s.dropWord.withFired []) hrun hodd hlast]
    exact ⟨cyc_of_last hcur hodd hlast, rfl, rfl, rfl, w, data, hword, hdec⟩

end Sys2Proof.Machine

/-! PROOFS. `ADVANCE` (40_bus_sampler R138 to R143, 42_acoustic R198): its frame, the deadlines that it fires and their
instants, and the additivity of time. -/

namespace Sys2Proof.Machine

open Sys2Proof.Statements

/-! ### The frame of `ADVANCE` -/

/-- States that agree in every part are equal. -/
theorem State.eq_of_parts {s t : State} (hcfg : t.cfg = s.cfg) (hctl : t.ctl = s.ctl) (hsmp : t.smp = s.smp)
    (henc : t.enc = s.enc) (halm : t.alm = s.alm) (hkb : t.kb = s.kb) (hac : t.ac = s.ac) (hitp : t.itp = s.itp)
    (hinputs : t.inputs = s.inputs) (hresult : t.result = s.result) (hfired : t.fired = s.fired) : t = s := by
  cases s
  cases t
  simp_all only

/-- Only a silence timeout of the turn writes the encoder: it releases the line (41_key_encoder R169). -/
theorem fireDue_enc (a b : Option Nat) (r : Nat) (s : State) :
    (fireDue a b r s).enc = if a = some r then { s.enc with wrKey := false, txWindow := false } else s.enc := by
  unfold fireDue
  by_cases ha : a = some r <;> by_cases hb : b = some r <;> simp [ha, hb, fireSilenceTimeout, shutWindow, releaseKey]

/-- `ADVANCE` leaves the encoder alone or releases its line (40_bus_sampler R138, 41_key_encoder R169). -/
theorem advanceTime_enc (dt : BitVec 24) (s : State) :
    (advanceTime dt s).enc = s.enc ∨ (advanceTime dt s).enc = { s.enc with wrKey := false, txWindow := false } :=
  advanceLoop_induction (P := fun t => t.enc = s.enc ∨ t.enc = { s.enc with wrKey := false, txWindow := false })
    (fun _ _ h => h)
    (fun a b r t h => by
      rw [fireDue_enc]
      split
      · exact .inr (h.elim (fun heq => by rw [heq]) (fun heq => by rw [heq]))
      · exact h) _ _ (.inl rfl)

theorem advanceTime_smp_frame (dt : BitVec 24) (s : State) : (advanceTime dt s).smp =
    { s.smp with
      cyc := (advanceTime dt s).smp.cyc, bitCnt := (advanceTime dt s).smp.bitCnt,
      byteIdx := (advanceTime dt s).smp.byteIdx, silArmed := (advanceTime dt s).smp.silArmed } := by
  rcases advanceTime_smp dt s with hsmp | hsmp
  · rw [hsmp]
  · rw [hsmp]
    rfl

theorem advanceTime_enc_frame (dt : BitVec 24) (s : State) : (advanceTime dt s).enc =
    { s.enc with txWindow := (advanceTime dt s).enc.txWindow, wrKey := (advanceTime dt s).enc.wrKey } := by
  rcases advanceTime_enc dt s with henc | henc <;> rw [henc]

/-- Settles O22: `NOW` moves by the whole of `dt`; the sampler is left alone or realigned, the encoder left alone or
released. -/
theorem advanceMovesTimeAndItsFrame : Obligations.AdvanceMovesTimeAndItsFrame := by
  refine ⟨encodes_of_reread (i := .advance 0) rfl rfl fun w => ?_, fun s dt hready => completes_iff.2 ⟨hready, ?_⟩⟩
  · refine congrArg Instr.advance (BitVec.eq_of_toNat_eq ?_)
    simp [dtField, BitVec.extractLsb'_toNat]
  · have hnow : s.ctl.now + BitVec.ofNat 32 dt.toNat = BitVec.ofNat 32 (s.ctl.now.toNat + dt.toNat) := by
      rw [BitVec.ofNat_add, BitVec.ofNat_toNat 32 s.ctl.now, BitVec.setWidth_eq]
    have hctl : (advanceTime dt (s.withFired [])).ctl = ((s.withFired []).tick dt.toNat).ctl := advanceLoop_ctl _ _ _
    rw [← hnow]
    exact State.eq_of_parts (advanceTime_cfg _ dt) hctl (advanceTime_smp_frame dt (s.withFired []))
      (advanceTime_enc_frame dt (s.withFired [])) (advanceTime_alm _ dt) (advanceTime_kb _ dt) rfl (advanceTime_itp _ dt)
      (advanceTime_inputs _ dt) rfl rfl

/-! ### An `ADVANCE` within its deadlines, or with one turn -/

theorem advanceTime_of_quietFor {dt : BitVec 24} {s : State} (h : s.QuietFor dt.toNat) :
    advanceTime dt s = s.tick dt.toNat := advanceLoop_of_quietFor _ h

/-- An `ADVANCE` in which the earliest deadline is the only one: the time up to it, its turn, and the rest of the time. -/
theorem advanceTime_of_one_turn {dt : BitVec 24} {r : Nat} {s : State} (h : earliest s.silenceDue s.acousticDue = some r)
    (hr : r ≤ dt.toNat) (hquiet : (s.turn r).QuietFor (dt.toNat - r)) :
    advanceTime dt s = (s.turn r).tick (dt.toNat - r) := by
  rw [advanceTime, advanceLoop_of_turn _ h hr, advanceLoop_of_quietFor _ hquiet]

theorem earliest_eq_some_of {a b : Option Nat} {r : Nat} (hmem : a = some r ∨ b = some r) (ha : ∀ d, a = some d → r ≤ d)
    (hb : ∀ d, b = some d → r ≤ d) : earliest a b = some r := by
  cases a with
  | none => exact hmem.resolve_left (by simp)
  | some x =>
    have hx := ha x rfl
    cases b with
    | none => exact hmem.resolve_right (by simp)
    | some y =>
      have hy := hb y rfl
      simp only [Option.some.injEq, earliest] at hmem ⊢
      omega

theorem fireDue_silence {a b : Option Nat} {r : Nat} (ha : a = some r) (hb : b ≠ some r) (s : State) :
    fireDue a b r s = fireSilenceTimeout s := by
  simp [fireDue, ha, hb]

theorem fireDue_acoustic {a b : Option Nat} {r : Nat} (ha : a ≠ some r) (hb : b = some r) (s : State) :
    fireDue a b r s = fireAcousticBoundary s := by
  simp [fireDue, ha, hb]

theorem fireDue_both {a b : Option Nat} {r : Nat} (ha : a = some r) (hb : b = some r) (s : State) :
    fireDue a b r s = fireAcousticBoundary (fireSilenceTimeout s) := by
  simp [fireDue, ha, hb]

/-- The length that the statements write out is `ac_len()` (42_acoustic R196). -/
theorem requestLength_eq (s : State) : requestLength s = s.ac.length s.cfg := by
  unfold requestLength Acoustic.length
  cases s.ac.acType <;> rfl

/-- The instant at which a length has elapsed since a stamp, counted from now. -/
theorem now_add_left {s : State} {t : Time} {length : Nat} (h : s.elapsed t ≤ length) :
    s.ctl.now + BitVec.ofNat 32 (length - s.elapsed t) = t + BitVec.ofNat 32 length := by
  have hnow : t + BitVec.ofNat 32 (s.elapsed t) = s.ctl.now := by
    rw [State.elapsed, BitVec.ofNat_toNat, BitVec.setWidth_eq, BitVec.add_comm, BitVec.sub_add_cancel]
  rw [← Nat.add_sub_cancel' h, BitVec.ofNat_add, ← BitVec.add_assoc, hnow, Nat.add_sub_cancel' h]

/-- Settles O23: no deadline falls within the time. -/
theorem advanceBeforeTheDeadlinesFiresNothing : Obligations.AdvanceBeforeTheDeadlinesFiresNothing := by
  intro s dt hready hsilence hacoustic
  have hquiet : (s.withFired []).QuietFor dt.toNat := State.quietFor_iff.2 ⟨hsilence, hacoustic⟩
  rw [exec_of_ready hready, effectOf, silent, advanceTime_of_quietFor hquiet]
  rfl

/-- The timeout leaves the acoustic deadline alone (40_bus_sampler R138). -/
theorem fireSilenceTimeout_acousticDue (s : State) : (fireSilenceTimeout s).acousticDue = s.acousticDue := rfl

theorem fireSilenceTimeout_silenceDue (s : State) : (fireSilenceTimeout s).silenceDue = none :=
  State.silenceDue_of_disarmed rfl

/-- Once `SILENCE_TIMEOUT` has fired, only the acoustic deadline is left (40_bus_sampler R138). -/
theorem fireSilenceTimeout_quietFor {s : State} {r n : Nat} (hv : s.cfg.valid = true) (hr : r ≤ n)
    (ha : ∀ d, s.acousticDue = some d → n < d) : (fireSilenceTimeout (s.tick r)).QuietFor (n - r) := by
  refine ⟨fun d hd => ?_, fun d hd => ?_⟩
  · rw [fireSilenceTimeout_silenceDue] at hd
    cases hd
  · rw [fireSilenceTimeout_acousticDue, State.acousticDue_tick hv fun d hd => hr.trans (ha d hd).le] at hd
    obtain ⟨e, he, rfl⟩ := Option.map_eq_some_iff.1 hd
    have := ha e he
    omega

/-- An `ADVANCE` in which only the silence deadline falls. -/
theorem advanceTime_of_silence {dt : BitVec 24} {r : Nat} {s : State} (hv : s.cfg.valid = true)
    (hs : s.silenceDue = some r) (hr : r ≤ dt.toNat) (ha : ∀ d, s.acousticDue = some d → dt.toNat < d) :
    advanceTime dt s = (fireSilenceTimeout (s.tick r)).tick (dt.toNat - r) := by
  have hne : s.acousticDue ≠ some r := fun hd => absurd (ha r hd) hr.not_gt
  have hturn : s.turn r = fireSilenceTimeout (s.tick r) := fireDue_silence hs hne _
  have hdue : earliest s.silenceDue s.acousticDue = some r := earliest_eq_some_of (.inl hs)
    (fun d hd => (Option.some.inj (hs.symm.trans hd)).le) (fun d hd => hr.trans (ha d hd).le)
  rw [advanceTime_of_one_turn hdue hr (hturn ▸ fireSilenceTimeout_quietFor hv hr ha), hturn]

/-- The state after the time up to a silence timeout, the timeout, and the rest of the time. -/
theorem tick_fireSilenceTimeout_tick {s : State} {r n : Nat} (hr : r ≤ n) :
    (fireSilenceTimeout (s.tick r)).tick (n - r) = { afterSilence s with
      ctl := { s.ctl with now := s.ctl.now + BitVec.ofNat 32 n },
      fired := s.fired ++ [.silenceTimeout (s.ctl.now + BitVec.ofNat 32 r)] } := by
  have hnow : s.ctl.now + BitVec.ofNat 32 r + BitVec.ofNat 32 (n - r) = s.ctl.now + BitVec.ofNat 32 n := by
    rw [BitVec.add_assoc, ← BitVec.ofNat_add, Nat.add_sub_cancel' hr]
  rw [← hnow]
  rfl

/-- Settles O24: the turn at the end of the silence window is the only one. -/
theorem silenceFiresJustAfterItsWindow : Obligations.SilenceFiresJustAfterItsWindow := by
  intro s dt hinv hrun harm hacoustic hpast
  obtain ⟨hs, hurgent, -⟩ := State.inv_iff.1 hinv
  have hel := hurgent hrun harm
  rw [requestLength_eq] at hacoustic
  have hreach : s.cfg.silenceWindowUs + 1 - s.elapsed s.smp.lastEdge ≤ dt.toNat := by omega
  have hsilence := State.silenceDue_of_armed hrun harm
  have hinstant := now_add_left (s := s) (t := s.smp.lastEdge) (length := s.cfg.silenceWindowUs + 1) (by omega)
  rw [exec_of_ready hinv.ready, effectOf, silent, advanceTime_of_silence (s := s.withFired []) hs.valid hsilence hreach
    (State.lt_acousticDue_iff.2 hacoustic), tick_fireSilenceTimeout_tick hreach, ← hinstant]
  rfl

/-- A deadline that falls exactly at the end of the time. -/
theorem left_eq_of_add {length elapsed n : Nat} (h : elapsed + n = length) : length - elapsed = n := by omega

/-- An `ADVANCE` that ends at the acoustic deadline, before the silence deadline. -/
theorem advanceTime_of_boundary {dt : BitVec 24} {s : State} (hv : s.cfg.valid = true) (hf : s.ac.formed = true)
    (hs : ∀ d, s.silenceDue = some d → dt.toNat < d) (ha : s.acousticDue = some dt.toNat) :
    advanceTime dt s = fireAcousticBoundary (s.tick dt.toNat) := by
  have hne : s.silenceDue ≠ some dt.toNat := fun hd => absurd (hs _ hd) (lt_irrefl _)
  have hturn : s.turn dt.toNat = fireAcousticBoundary (s.tick dt.toNat) := fireDue_acoustic hne ha _
  have hdue : earliest s.silenceDue s.acousticDue = some dt.toNat := earliest_eq_some_of (.inr ha)
    (fun d hd => (hs d hd).le) (fun d hd => (Option.some.inj (ha.symm.trans hd)).le)
  have hlater : (s.turn dt.toNat).QuietFor (dt.toNat - dt.toNat) := by
    rw [Nat.sub_self]
    exact State.turn_later hv hf hdue
  rw [advanceTime_of_one_turn hdue le_rfl hlater, Nat.sub_self, State.tick_zero, hturn]

/-- Settles O25: the boundary is the only turn, and after it both deadlines lie ahead. -/
theorem boundaryFiresAtTheEndOfItsRequest : Obligations.BoundaryFiresAtTheEndOfItsRequest := by
  intro s dt hinv hty hsilence hend
  obtain ⟨hs, -⟩ := State.inv_iff.1 hinv
  rw [requestLength_eq] at hend
  have hacoustic : s.acousticDue = some dt.toNat := by
    rw [State.acousticDue_of_request hty, left_eq_of_add hend]
  rw [exec_of_ready hinv.ready, effectOf, silent, advanceTime_of_boundary (s := s.withFired []) hs.valid hs.formed
    (State.lt_silenceDue_iff.2 fun _ => hsilence) hacoustic]
  rfl

/-! ### Two deadlines at one instant -/

/-- Whatever is due is logged after what was logged before. -/
theorem fireDue_fired (a b : Option Nat) (r : Nat) (s : State) : ∃ later, (fireDue a b r s).fired = s.fired ++ later := by
  by_cases ha : a = some r <;> by_cases hb : b = some r
  · exact ⟨[.silenceTimeout s.ctl.now, .acousticBoundary s.ctl.now], by
      rw [fireDue_both ha hb]
      exact List.append_assoc s.fired [_] [_]⟩
  · exact ⟨_, by rw [fireDue_silence ha hb]; rfl⟩
  · exact ⟨_, by rw [fireDue_acoustic ha hb]; rfl⟩
  · exact ⟨[], by simp [fireDue, ha, hb]⟩

/-- The loop only appends to the log. -/
theorem advanceLoop_fired (fuel rem : Nat) (s : State) : ∃ later, (advanceLoop fuel rem s).fired = s.fired ++ later :=
  advanceLoop_induction (P := fun t => ∃ later, t.fired = s.fired ++ later) (fun _ _ h => h)
    (fun a b r t ⟨before, hbefore⟩ => by
      obtain ⟨later, hlater⟩ := fireDue_fired a b r t
      exact ⟨before ++ later, by rw [hlater, hbefore, List.append_assoc]⟩) _ _ ⟨[], (List.append_nil _).symm⟩

theorem earliest_of_both {a b : Option Nat} {r : Nat} (ha : a = some r) (hb : b = some r) : earliest a b = some r := by
  rw [ha, hb]
  exact congrArg some (Nat.min_self r)

theorem State.turn_of_both {s : State} {r : Nat} (hs : s.silenceDue = some r) (ha : s.acousticDue = some r) :
    s.turn r = fireAcousticBoundary (fireSilenceTimeout (s.tick r)) := fireDue_both hs ha _

/-- An `ADVANCE` that ends at the instant of both deadlines. -/
theorem advanceTime_of_both {dt : BitVec 24} {s : State} (hv : s.cfg.valid = true) (hf : s.ac.formed = true)
    (hs : s.silenceDue = some dt.toNat) (ha : s.acousticDue = some dt.toNat) :
    advanceTime dt s = fireAcousticBoundary (fireSilenceTimeout (s.tick dt.toNat)) := by
  have hdue := earliest_of_both hs ha
  have hlater : (s.turn dt.toNat).QuietFor (dt.toNat - dt.toNat) := by
    rw [Nat.sub_self]
    exact State.turn_later hv hf hdue
  rw [advanceTime_of_one_turn hdue le_rfl hlater, Nat.sub_self, State.tick_zero, State.turn_of_both hs ha]

/-- Settles O26: both are due in one turn, which fires the timeout first. -/
theorem silenceFiresBeforeBoundaryAtOneInstant : Obligations.SilenceFiresBeforeBoundaryAtOneInstant := by
  intro s dt r hready hrun harm hty hsilenceEnd hacousticEnd hr
  rw [requestLength_eq] at hacousticEnd
  have hsilence : s.silenceDue = some r := by
    rw [State.silenceDue_of_armed hrun harm, left_eq_of_add hsilenceEnd]
  have hacoustic : s.acousticDue = some r := by
    rw [State.acousticDue_of_request hty, left_eq_of_add hacousticEnd]
  constructor
  · refine completes_iff.2 ⟨hready, ?_⟩
    obtain ⟨later, hlater⟩ := advanceLoop_fired (dt.toNat + 1) (dt.toNat - r) ((s.withFired []).turn r)
    refine ⟨later, ?_⟩
    change (advanceTime dt (s.withFired [])).fired = _
    rw [advanceTime, advanceLoop_of_turn (s := s.withFired []) _ (earliest_of_both hsilence hacoustic) hr, hlater,
      State.turn_of_both (s := s.withFired []) hsilence hacoustic]
    rfl
  · rintro rfl
    obtain ⟨-, -, hformed⟩ := State.formed_iff.1 hready.2
    rw [exec_of_ready hready, effectOf, silent,
      advanceTime_of_both (s := s.withFired []) hready.1 hformed hsilence hacoustic]
    rfl

/-! ### Additivity -/

theorem fireDue_comm {f : State → State} (hsilent : ∀ s, f (fireSilenceTimeout s) = fireSilenceTimeout (f s))
    (hbound : ∀ s, f (fireAcousticBoundary s) = fireAcousticBoundary (f s)) (a b : Option Nat) (r : Nat) (s : State) :
    f (fireDue a b r s) = fireDue a b r (f s) := by
  simp only [fireDue, apply_ite f, hsilent, hbound]

/-- What commutes with time and with the operations that `ADVANCE` fires, and moves no deadline, commutes with the loop. -/
theorem advanceLoop_comm {f : State → State} (htick : ∀ s n, f (s.tick n) = (f s).tick n)
    (hsilent : ∀ s, f (fireSilenceTimeout s) = fireSilenceTimeout (f s))
    (hbound : ∀ s, f (fireAcousticBoundary s) = fireAcousticBoundary (f s))
    (hsilence : ∀ s, (f s).silenceDue = s.silenceDue) (hacoustic : ∀ s, (f s).acousticDue = s.acousticDue) :
    ∀ (fuel rem : Nat) (s : State), f (advanceLoop fuel rem s) = advanceLoop fuel rem (f s)
  | 0, _, _ => htick _ _
  | fuel + 1, rem, s => by
    rcases s.quietFor_or_turn rem with hquiet | ⟨r, hr, hdue⟩
    · have hquiet' : (f s).QuietFor rem := by rwa [State.QuietFor, hsilence, hacoustic]
      rw [advanceLoop_of_quietFor _ hquiet, advanceLoop_of_quietFor _ hquiet', htick]
    · have hdue' : earliest (f s).silenceDue (f s).acousticDue = some r := by rw [hsilence, hacoustic, hdue]
      have hturn : f (s.turn r) = (f s).turn r := by
        rw [State.turn, State.turn, fireDue_comm hsilent hbound, htick, hsilence, hacoustic]
      rw [advanceLoop_of_turn _ hdue hr, advanceLoop_of_turn _ hdue' hr, ← hturn,
        advanceLoop_comm htick hsilent hbound hsilence hacoustic]

/-- The state with operations put before those that it has logged. -/
def State.afterEvents (l : List Event) (s : State) : State := s.withFired (l ++ s.fired)

theorem State.log_afterEvents (l : List Event) (e : Event) (s : State) :
    (s.log e).afterEvents l = (s.afterEvents l).log e :=
  congrArg s.withFired (List.append_assoc l s.fired [e]).symm

/-- What was logged before plays no part in what `ADVANCE` does. -/
theorem advanceTime_afterEvents (dt : BitVec 24) (l : List Event) (s : State) :
    advanceTime dt (s.afterEvents l) = (advanceTime dt s).afterEvents l :=
  (advanceLoop_comm (f := State.afterEvents l) (fun _ _ => rfl) (fun _ => State.log_afterEvents l _ _)
    (fun _ => State.log_afterEvents l _ _) (fun _ => rfl) (fun _ => rfl) _ _ _).symm

theorem advanceTime_withResult (dt : BitVec 24) (x : Word) (s : State) :
    advanceTime dt (s.withResult x) = (advanceTime dt s).withResult x :=
  (advanceLoop_comm (f := (State.withResult · x)) (fun _ _ => rfl) (fun _ => rfl) (fun _ => rfl) (fun _ => rfl)
    (fun _ => rfl) _ _ _).symm

theorem advanceTime_add {a b : BitVec 24} {s : State} (h : s.Inv) (hab : a.toNat + b.toNat < 2 ^ 24) :
    advanceTime (a + b) s = advanceTime b (advanceTime a s) := by
  obtain ⟨hs, hurgent⟩ := State.inv_iff.1 h
  have hsum : (a + b).toNat = a.toNat + b.toNat := by rw [BitVec.toNat_add, Nat.mod_eq_of_lt hab]
  rw [advanceTime, hsum]
  exact (advanceLoop_add hs.valid hs.formed (State.later_iff_urgent.2 hurgent) (by omega) (by omega) (by omega)).symm

/-- An `ADVANCE` goes on from where another ended, and its own log is what it adds. -/
theorem advanceTime_eq_afterEvents (dt : BitVec 24) (s : State) :
    advanceTime dt s = (advanceTime dt (s.withFired [])).afterEvents s.fired := by
  rw [← advanceTime_afterEvents, State.afterEvents, State.withFired_fired, List.append_nil]
  rfl

/-- The state that `ADVANCE` answers does not depend on the result word before it. -/
theorem finish_advance_withResult (dt : BitVec 24) (x : Word) (s : State) :
    finish (effectOf (.advance dt) ((s.withResult x).withFired [])) = (advanceTime dt (s.withFired [])).withResult 0 := by
  change (advanceTime dt ((s.withFired []).withResult x)).withResult 0 = _
  rw [advanceTime_withResult]
  rfl

/-- Settles O27: the loop over the sum is the loop over `b` after the loop over `a`, and its log starts with that of `a`. -/
theorem advanceIsAdditive : Obligations.AdvanceIsAdditive := by
  intro s a b hinv hab
  have hfirst : finish (effectOf (.advance a) (s.withFired [])) = (advanceTime a (s.withFired [])).withResult 0 := rfl
  have hinv' : ((advanceTime a (s.withFired [])).withResult 0).Inv := advanceTime_inv a (s := s.withFired []) hinv
  have hsum : finish (effectOf (.advance (a + b)) (s.withFired []))
      = (advanceTime b (advanceTime a (s.withFired []))).withResult 0 :=
    congrArg (State.withResult · 0) (advanceTime_add (s := s.withFired []) hinv hab)
  refine completes_iff.2 ⟨hinv.ready, ?_⟩
  rw [hfirst]
  refine completes_iff.2 ⟨hinv'.ready, ?_⟩
  rw [finish_advance_withResult, exec_of_ready hinv.ready, hsum, advanceTime_eq_afterEvents]
  rfl

end Sys2Proof.Machine

/-! PROOFS. Key Encoder (41_key_encoder): the edges that open and close the response window, the edges within it, the pending
alarm response, and the write pin. -/

namespace Sys2Proof.Machine

open Sys2Proof.Statements

/-! ### The write pin -/

/-- The pin with no response window open (41_key_encoder R170). -/
theorem State.wr_of_shut {s : State} (hrun : s.ctl.running = true) (hshut : s.enc.txWindow = false) : s.wr = s.wrAc := by
  simp [State.wr, hrun, hshut]

/-- Settles O33: the pin follows the encoder in an open window, and else the waveform of the type in flight. -/
theorem writePinIsSharedByPriority : Obligations.WritePinIsSharedByPriority := by
  intro s
  refine ⟨fun hrun => ?_, fun hrun hopen => ?_, fun hrun hshut => ?_⟩
  · simp [State.wr, hrun]
  · simp [State.wr, hrun, hopen]
  · rw [State.wr_of_shut hrun hshut, State.wrAc, Acoustic.wave]
    cases s.ac.acType with
    | none | beep | buzzer => rfl
    | tone => exact (Bool.decide_and _ _).symm

/-! ### The edges of the module windows -/

/-- Past bit position 0 the encoder drives the key bit and selects nothing (41_key_encoder R161). -/
theorem encOdd_of_later {s : State} (h : s.smp.bitCnt ≠ 0#5) : encOdd s = driveKey s :=
  congrArg driveKey (if_neg h)

/-- At bit position 0 the encoder selects the key first (41_key_encoder R161). -/
theorem encOdd_of_first {s : State} (h : s.smp.bitCnt = 0#5) : encOdd s = driveKey (selectKey s) :=
  congrArg driveKey (if_pos h)

/-- Settles O29: past bit position 0 the encoder writes `WR_KEY` only. -/
theorem moduleEdgeDrivesTheKeyBit : Obligations.ModuleEdgeDrivesTheKeyBit := by
  intro s data hready hrun hodd hbit
  have hlater : s.smp.bitCnt ≠ 0#5 := fun hzero => by
    rw [hzero] at hbit
    exact absurd hbit (Nat.lt_irrefl 0)
  refine completes_iff.2 ⟨hready, ?_⟩
  calc (clockEdge data (s.withFired [])).enc
      = (encOdd (stampEdge (s.withFired []))).enc := clockEdge_module_enc data hrun hodd
    _ = (driveKey (stampEdge (s.withFired []))).enc := by rw [encOdd_of_later (s := stampEdge (s.withFired [])) hlater]

/-! ### The key to send -/

/-- A press in progress goes on (41_key_encoder R162). -/
theorem State.chooseKey_of_press {s : State} (h : s.enc.txSrc ≠ .none) : s.chooseKey = s.enc := if_neg h

/-- Without a press, an alarm key that may be taken comes first (41_key_encoder R162). -/
theorem State.chooseKey_of_alarm {s : State} (h : s.enc.txSrc = .none) (hready : s.alm.ready = true) :
    s.chooseKey = s.enc.latch .alarm s.alm.code s.ctl.now := by
  rw [State.chooseKey, if_pos h, if_pos hready]

/-- Without a press and an alarm key to take, the oldest buffered key is taken (41_key_encoder R162). -/
theorem State.chooseKey_of_buffered {s : State} (h : s.enc.txSrc = .none) (hready : ¬ s.alm.ready = true)
    (hcount : s.kbCount ≠ 0) : s.chooseKey = s.enc.latch .fifo s.peek s.ctl.now := by
  rw [State.chooseKey, if_pos h, if_neg hready, if_pos (Nat.pos_of_ne_zero hcount)]

/-- Without a press, an alarm key to take and a buffered key, no key is sent (41_key_encoder R162). -/
theorem State.chooseKey_of_empty {s : State} (h : s.enc.txSrc = .none) (hready : ¬ s.alm.ready = true)
    (hcount : s.kbCount = 0) : s.chooseKey = s.enc := by
  rw [State.chooseKey, if_pos h, if_neg hready, if_neg (Nat.not_lt.2 hcount.le)]

theorem AlarmPath.ready_iff {a : AlarmPath} : a.ready = true ↔ a.detected = true ∧ a.respPending = false := by
  simp [AlarmPath.ready]

theorem State.queue_eq_nil_iff {s : State} : s.queue = [] ↔ s.kbCount = 0 := by
  simp [State.queue]

/-- A pop takes the entry that `peek()` shows off the front of the ring (43_key_buffer R222, R223). -/
theorem queue_eq_peek_cons {s : State} (hv : s.cfg.valid = true) (h : s.PointersInRange) (hne : s.kbCount ≠ 0) :
    s.queue = s.peek :: (popKey s).queue := by
  have hentry : (popKey s).entry = s.entry ∘ Nat.succ := funext fun k => popKey_entry hv h hne k
  rw [State.queue_eq_map_entry, ← popKey_kbCount hv h hne, List.range_succ_eq_map, List.map_cons, List.map_map, ← hentry]
  rfl

/-- The edge that opens the response window, as a whole: the key is chosen, and bit 7 of it is driven (41_key_encoder R161,
R162). -/
theorem clockEdge_opening_eq (data : Bool) {s : State} (hrun : s.ctl.running = true) (hcur : s.CursorsAgree)
    (hcyc : s.smp.cyc = 1#5) : clockEdge data s =
    { s with
      smp := (clockEdge data s).smp,
      enc := { s.chooseKey with
        txWindow := decide (s.chooseKey.txSrc ≠ .none),
        wrKey := decide (s.chooseKey.txSrc ≠ .none) && (s.chooseKey.txKey.getLsbD 7 == s.cfg.assertOn) } } := by
  obtain ⟨hexp, hbit, -⟩ := hcur
  rw [hcyc] at hbit
  have hfirst : s.smp.bitCnt = 0#5 := BitVec.eq_of_toNat_eq hbit
  have hodd : s.smp.cyc.toNat % 2 = 1 := by rw [hcyc]; rfl
  have hmid : s.smp.bitCnt + 1#5 ≠ s.smp.expBits := by rw [hfirst, hexp]; decide
  have henc : (encOdd (stampEdge s)).enc = { s.chooseKey with
      txWindow := decide (s.chooseKey.txSrc ≠ .none),
      wrKey := decide (s.chooseKey.txSrc ≠ .none) && (s.chooseKey.txKey.getLsbD 7 == s.cfg.assertOn) } := by
    have hselected : (selectKey (stampEdge s)).smp.bitCnt = 0#5 := hfirst
    rw [encOdd_of_first (s := stampEdge s) hfirst, driveKey, State.withEnc_enc, Encoder.drive, hselected]
    rfl
  rw [clockEdge_module_eq data hrun hodd hmid, henc]

/-- Settles O28: the key is chosen in the order of R162; the ring's oldest entry is what `peek()` shows. -/
theorem windowOpenEdgeSelectsTheKey : Obligations.WindowOpenEdgeSelectsTheKey := by
  intro s data hinv hrun hcyc
  have hring : s.PointersInRange := (State.ringHolds_iff.1 (State.inv_iff.1 hinv).1.ring).1
  refine completes_iff.2 ⟨hinv.ready, ?_⟩
  rw [effectOf, silent, clockEdge_opening_eq data (s := s.withFired []) hrun hinv.2.1 hcyc]
  have hchoose : (s.withFired []).chooseKey = s.chooseKey := rfl
  rw [hchoose]
  refine ⟨rfl, fun hpress => ?_, fun hnone hdet hpend => ?_, fun hnone hidle h q hq => ?_, fun hnone hidle hempty => ?_, rfl⟩
  · rw [State.chooseKey_of_press hpress]
    exact ⟨rfl, rfl, rfl, decide_eq_true hpress⟩
  · rw [State.chooseKey_of_alarm hnone (AlarmPath.ready_iff.2 ⟨hdet, hpend⟩)]
    exact ⟨rfl, rfl, rfl, rfl⟩
  · have hcount : s.kbCount ≠ 0 := fun hzero => by simp [State.queue_eq_nil_iff.2 hzero] at hq
    have hpeek : s.peek = h := by
      rw [queue_eq_peek_cons hinv.1 hring hcount] at hq
      exact (List.cons.inj hq).1
    rw [State.chooseKey_of_buffered hnone (mt AlarmPath.ready_iff.1 hidle) hcount]
    exact ⟨rfl, hpeek, rfl, rfl⟩
  · rw [State.chooseKey_of_empty hnone (mt AlarmPath.ready_iff.1 hidle) (State.queue_eq_nil_iff.1 hempty)]
    exact ⟨hnone, rfl, rfl, decide_eq_false (not_not.2 hnone)⟩

/-! ### The end of a press -/

/-- The hold of a buffered key, which is never of class `Alarm` (41_key_encoder R166). -/
theorem fifoHoldMet_iff {s : State} (hclass : s.cfg.keyClass s.enc.txKey ≠ .alarm) : s.fifoHoldMet = true ↔
    s.cfg.keyClass s.enc.txKey = .short ∨ s.cfg.longHoldUs ≤ s.elapsed s.enc.txT0 := by
  rw [State.fifoHoldMet, decide_eq_true_iff, Config.hold]
  cases hkey : s.cfg.keyClass s.enc.txKey with
  | short => simp
  | long => simp
  | alarm => exact absurd hkey hclass

theorem popKey_of_nonempty {s : State} (hne : s.kbCount ≠ 0) : popKey s =
    (s.withKb { s.kb with rd := nextPointer s.kb.rd s.cfg.kbCapacity }).log (.pop s.ctl.now (some s.peek)) := by
  rw [popKey, if_neg hne, State.popped, if_neg hne]

/-- A buffered key whose hold is met is popped (41_key_encoder R165). -/
theorem retireKey_of_popped {s : State} (hsrc : s.enc.txSrc = .fifo) (hmet : s.fifoHoldMet = true) :
    retireKey s = endPress (popKey s) := if_pos ⟨hsrc, hmet⟩

/-- An alarm key whose hold is met is retired, and its response is pending (41_key_encoder R165). -/
theorem retireKey_alarm_met {s : State} (hsrc : s.enc.txSrc = .alarm)
    (hmet : s.cfg.alarmMinHoldUs ≤ s.elapsed s.enc.txT0) :
    retireKey s = endPress (s.withAlm (s.alm.issue s.ctl.now)) := by
  rw [retireKey, if_neg (by simp [hsrc]), if_pos ⟨hsrc, decide_eq_true hmet⟩]

/-- A press whose hold is not met goes on (41_key_encoder R165). -/
theorem retireKey_of_held {s : State} (hfifo : s.enc.txSrc = .fifo → ¬ s.fifoHoldMet = true)
    (halarm : s.enc.txSrc = .alarm → ¬ s.alarmHoldMet = true) : retireKey s = s := by
  rw [retireKey, if_neg fun ⟨hsrc, hmet⟩ => hfifo hsrc hmet, if_neg fun ⟨hsrc, hmet⟩ => halarm hsrc hmet]

/-- Of the latches, the end of a press writes `TX_SRC` only (41_key_encoder R165). -/
theorem retireKey_enc (s : State) : (retireKey s).enc = { s.enc with txSrc := (retireKey s).enc.txSrc } := by
  unfold retireKey
  split
  · simp [endPress]
  · split <;> rfl

/-- Of the Key Buffer, the end of a press writes the read pointer only (41_key_encoder R165, 43_key_buffer R222). -/
theorem retireKey_kb_frame (s : State) : (retireKey s).kb = { s.kb with rd := (retireKey s).kb.rd } := by
  rcases retireKey_kb s with hkb | hkb <;> rw [hkb]
  rw [popKey_kb]
  split <;> rfl

/-- The state in which `close_window()` decides whether a press ends: the edge has restarted the countdown and released the
line (40_bus_sampler R131, 41_key_encoder R164). -/
def State.released (s : State) : State := releaseKey (stampEdge s)

/-- The edge that closes the response window, as a whole (41_key_encoder R164, R165). -/
theorem clockEdge_closing_eq (data : Bool) {s : State} (hrun : s.ctl.running = true) (heven : s.smp.cyc.toNat % 2 = 0)
    (hclose : s.smp.bitCnt = 8#5 ∧ s.enc.txWindow = true) : clockEdge data s =
    { s with
      smp := { stamped s with
        cmdSr := s.smp.cmdSr.set s.smp.byteIdx (shifted (s.smp.cmdSr.get s.smp.byteIdx) data),
        cyc := s.smp.cyc + 1#5 },
      enc := { s.enc with txSrc := (retireKey s.released).enc.txSrc, wrKey := false, txWindow := false },
      alm := (retireKey s.released).alm, kb := (retireKey s.released).kb, fired := (retireKey s.released).fired } := by
  have hsmp : (shutWindow (retireKey s.released)).smp = stamped s := retireKey_smp _
  have henc : (shutWindow (retireKey s.released)).enc =
      { s.enc with txSrc := (retireKey s.released).enc.txSrc, wrKey := false, txWindow := false } := by
    rw [shutWindow, State.withEnc_enc, retireKey_enc]
    rfl
  rw [clockEdge_panel data hrun heven, encEven_of_close (s := stampEdge s) hclose, ← State.released, closeWindow,
    samplePanel, hsmp, shiftIn_eq_ofNat]
  exact State.eq_of_parts (retireKey_cfg _) (retireKey_ctl _) rfl henc rfl rfl (retireKey_ac _) (retireKey_itp _)
    (retireKey_inputs _) (retireKey_result _) rfl

/-- The key of a press from the ring is not of class `Alarm` (41_key_encoder R166). -/
theorem keyClass_of_fifo {s : State} (hring : s.RingHolds) (hpress : s.PressHolds) (hsrc : s.enc.txSrc = .fifo) :
    s.cfg.keyClass s.enc.txKey ≠ .alarm := by
  obtain ⟨-, hclass⟩ := State.ringHolds_iff.1 hring
  obtain ⟨hpos, hkey⟩ := hpress.1 hsrc
  rw [hkey, State.peek_eq_entry]
  exact hclass 0 hpos

/-- What the pop of a buffered key leaves: no press, the ring without the key, and the key in the log (41_key_encoder
R165). -/
theorem retireKey_fifo_met {s : State} (hv : s.cfg.valid = true) (hring : s.RingHolds) (hpress : s.PressHolds)
    (hsrc : s.enc.txSrc = .fifo)
    (hmet : s.cfg.keyClass s.enc.txKey = .short ∨ s.cfg.longHoldUs ≤ s.elapsed s.enc.txT0) :
    (retireKey s).enc.txSrc = .none ∧ s.queue = s.enc.txKey :: (retireKey s).queue ∧ (retireKey s).alm = s.alm
      ∧ (retireKey s).fired = s.fired ++ [.pop s.ctl.now (some s.enc.txKey)] := by
  obtain ⟨hpos, hkey⟩ := hpress.1 hsrc
  have hne : s.kbCount ≠ 0 := hpos.ne'
  rw [retireKey_of_popped hsrc ((fifoHoldMet_iff (keyClass_of_fifo hring hpress hsrc)).2 hmet), hkey]
  refine ⟨rfl, queue_eq_peek_cons hv (State.ringHolds_iff.1 hring).1 hne, popKey_alm s, ?_⟩
  rw [popKey_of_nonempty hne]
  rfl

theorem retireKey_long_held {s : State} (hsrc : s.enc.txSrc = .fifo) (hlong : s.cfg.keyClass s.enc.txKey = .long)
    (hheld : s.elapsed s.enc.txT0 < s.cfg.longHoldUs) : retireKey s = s := by
  refine retireKey_of_held (fun _ hmet => ?_) fun halarm => absurd (hsrc.symm.trans halarm) (by simp)
  rcases (fifoHoldMet_iff (by simp [hlong])).1 hmet with hshort | hle
  · exact absurd (hlong.symm.trans hshort) (by simp)
  · exact absurd hle (Nat.not_le.2 hheld)

theorem retireKey_alarm_held {s : State} (hsrc : s.enc.txSrc = .alarm)
    (hheld : s.elapsed s.enc.txT0 < s.cfg.alarmMinHoldUs) : retireKey s = s :=
  retireKey_of_held (fun hfifo => absurd (hsrc.symm.trans hfifo) (by simp)) fun _ hmet =>
    absurd (of_decide_eq_true hmet) (Nat.not_le.2 hheld)

/-- The end of an alarm press leaves the Key Buffer and the log alone (41_key_encoder R165). -/
theorem retireKey_alarm_frame {s : State} (hsrc : s.enc.txSrc = .alarm) :
    (retireKey s).kb = s.kb ∧ (retireKey s).fired = s.fired := by
  rcases Nat.lt_or_ge (s.elapsed s.enc.txT0) s.cfg.alarmMinHoldUs with hheld | hmet
  · rw [retireKey_alarm_held hsrc hheld]
    exact ⟨rfl, rfl⟩
  · rw [retireKey_alarm_met hsrc hmet]
    exact ⟨rfl, rfl⟩

/-- The content of the ring reads the Key Buffer and the configuration only. -/
theorem queue_of_eq {s t : State} (hcfg : t.cfg = s.cfg) (hkb : t.kb = s.kb) : t.queue = s.queue := by
  rw [State.queue, State.queue, State.kbCount, State.kbCount, hcfg, hkb]

/-- Settles O30: the press ends or goes on as its hold says; the rest of the edge is the same for every press. -/
theorem windowCloseEdgeRetiresTheKey : Obligations.WindowCloseEdgeRetiresTheKey := by
  intro s data hinv hrun hcyc hwin held
  obtain ⟨⟨hv, ⟨-, hbit, hbyte⟩, -, hring, -, -, -, -, hpress, -⟩, -⟩ := State.inv_iff.1 hinv
  rw [hcyc] at hbit
  rw [hbit] at hbyte
  have hbit8 : s.smp.bitCnt = 8#5 := BitVec.eq_of_toNat_eq hbit
  have hbyte1 : s.smp.byteIdx = 1#1 := BitVec.eq_of_toNat_eq hbyte
  have heven : s.smp.cyc.toNat % 2 = 0 := by rw [hcyc]; rfl
  refine completes_iff.2 ⟨hinv.ready, ?_⟩
  rw [effectOf, silent, clockEdge_closing_eq data (s := s.withFired []) hrun heven ⟨hbit8, hwin⟩]
  refine ⟨?_, fun hsrc => ⟨fun hmet => ?_, fun hlong hheld => ?_⟩, fun hsrc => ⟨?_, ?_, fun hmet => ?_, fun hheld => ?_⟩⟩
  · rw [State.withFired_smp, hbyte1, hcyc]
    exact State.eq_of_parts rfl rfl rfl rfl rfl (retireKey_kb_frame _) rfl rfl rfl rfl rfl
  · obtain ⟨hnone, hqueue, halm, hfired⟩ := retireKey_fifo_met (s := (s.withFired []).released) hv hring hpress hsrc hmet
    exact ⟨hnone, hqueue.trans (congrArg _ (queue_of_eq (retireKey_cfg _) rfl)), halm, hfired⟩
  · rw [retireKey_long_held (s := (s.withFired []).released) hsrc hlong hheld]
    exact ⟨hsrc, rfl, rfl, rfl⟩
  · exact (retireKey_alarm_frame (s := (s.withFired []).released) hsrc).1
  · exact (retireKey_alarm_frame (s := (s.withFired []).released) hsrc).2
  · rw [retireKey_alarm_met (s := (s.withFired []).released) hsrc hmet]
    exact ⟨rfl, rfl⟩
  · rw [retireKey_alarm_held (s := (s.withFired []).released) hsrc hheld]
    exact ⟨hsrc, rfl⟩

/-! ### The pending alarm response -/

/-- A pending response is cleared by a frame completion only if the suppression window is over and the frame acknowledges
it (41_key_encoder R168). -/
theorem acknowledged_of_pendingAfter {s : State} {c0 c1 : Byte} (hpend : s.alm.respPending = true)
    (hafter : pendingAfter s c0 c1 = false) :
    s.cfg.alarmReissueUs ≤ (s.ctl.now - s.alm.tIssue).toNat ∧ s.cfg.alarmAck c0 c1 = true := by
  simpa [pendingAfter, hpend] using hafter

/-- The end of a press makes a response pending or leaves it as it is (41_key_encoder R165). -/
theorem retireKey_respPending {s : State} (h : s.alm.respPending = true) : (retireKey s).alm.respPending = true := by
  unfold retireKey
  split
  · rw [endPress_alm, popKey_alm]
    exact h
  · split
    · rfl
    · exact h

theorem encEven_respPending {s : State} (h : s.alm.respPending = true) : (encEven s).alm.respPending = true := by
  unfold encEven
  split
  · exact retireKey_respPending (s := releaseKey s) h
  · exact h

/-- An edge that clears the pending response completes a frame (41_key_encoder R168). -/
theorem clockEdge_last_of_respPending {data : Bool} {s : State} (hpend : s.alm.respPending = true)
    (hclear : (clockEdge data s).alm.respPending = false) :
    s.ctl.running = true ∧ s.smp.cyc.toNat % 2 = 1 ∧ s.smp.bitCnt + 1#5 = s.smp.expBits := by
  have hkept : ¬ (clockEdge data s).alm.respPending = true := by simp [hclear]
  cases hrun : s.ctl.running with
  | false => exact absurd (by rwa [clockEdge_idle data hrun]) hkept
  | true =>
    rcases Nat.mod_two_eq_zero_or_one s.smp.cyc.toNat with heven | hodd
    · refine absurd ?_ hkept
      rw [clockEdge_panel data hrun heven, samplePanel_alm]
      exact encEven_respPending (s := stampEdge s) hpend
    · by_cases hlast : s.smp.bitCnt + 1#5 = s.smp.expBits
      · exact ⟨rfl, hodd, hlast⟩
      · exact absurd (by rwa [clockEdge_module_eq data hrun hodd hlast]) hkept

theorem pushKey_respPending (code : Byte) (s : State) : (pushKey code s).alm.respPending = s.alm.respPending := by
  unfold pushKey
  split
  · unfold pushAlarm
    split <;> rfl
  · rw [pushRing_alm]

theorem pollFrame_alm (s : State) : (pollFrame s).1.alm = s.alm := by
  rw [pollFrame_fst]
  split <;> rfl

/-- Only `INITIALIZE`, an edge and a frame completion write the pending response (41_key_encoder R165, R168). -/
theorem effectOf_respPending {i : Instr} (hinit : ∀ a b c, i ≠ .initialise a b c) (hedge : ∀ data, i ≠ .clockEdge data)
    (hframe : i ≠ .frameComplete) (s : State) : (effectOf i s).1.alm.respPending = s.alm.respPending := by
  cases i with
  | initialise a b c => exact absurd rfl (hinit a b c)
  | clockEdge data => exact absurd rfl (hedge data)
  | frameComplete => exact absurd rfl hframe
  | push code => exact pushKey_respPending code s
  | poll => exact congrArg AlarmPath.respPending (pollFrame_alm s)
  | _ => simp [effectOf]

/-- Settles O31: only an edge that completes a frame, or `FRAME_COMPLETE` on its own, clears the pending response, and the
check of R168 lets it. -/
theorem responsePendingUntilAcknowledged : Obligations.ResponsePendingUntilAcknowledged := by
  intro i s t hexec hinit hpend hclear
  obtain ⟨-, -, rfl⟩ := exec_eq_next.1 hexec
  by_cases hframe : i = .frameComplete
  · subst hframe
    rw [effectOf, silent, fireFrameComplete_eq] at hclear ⊢
    obtain ⟨hover, hack⟩ := acknowledged_of_pendingAfter (s := s.withFired []) hpend hclear
    exact ⟨hover, hack, rfl⟩
  · by_cases hedge : ∃ data, i = .clockEdge data
    · obtain ⟨data, rfl⟩ := hedge
      obtain ⟨hrun, hodd, hlast⟩ := clockEdge_last_of_respPending (s := s.withFired []) hpend hclear
      rw [effectOf, silent, clockEdge_last_eq data hrun hodd hlast] at hclear ⊢
      obtain ⟨hover, hack⟩ := acknowledged_of_pendingAfter (s := s.withFired []) hpend hclear
      exact ⟨hover, hack, rfl⟩
    · have hkept : (effectOf i (s.withFired [])).1.alm.respPending = s.alm.respPending :=
        effectOf_respPending hinit (fun data heq => hedge ⟨data, heq⟩) hframe _
      exact absurd (hclear.symm.trans (hkept.trans hpend)) (by simp)

end Sys2Proof.Machine

/-! PROOFS. Acoustic Sequencer (42_acoustic): the three requests, `ACOUSTIC_BOUNDARY`, the continuous-tone output, and a tone
while time passes. -/

namespace Sys2Proof.Machine

open Sys2Proof.Statements

/-! ### The continuous-tone output -/

/-- Settles O34: the output reads these three fields. -/
theorem continuousToneOutput : Obligations.ContinuousToneOutput := by
  intro s
  rw [State.toneCont, Bool.and_eq_true, Bool.and_eq_true, decide_eq_true_iff, and_assoc]

/-! ### Boundaries -/

/-- What the statements write out for the registers after a boundary is what the operation does (42_acoustic R198). -/
theorem afterBoundary_eq (a : Acoustic) (now : Time) : afterBoundary a now = a.boundary now := rfl

/-- Settles O38: a boundary writes the acoustic registers and the log. -/
theorem acousticBoundaryPromotesRepeatsOrEnds : Obligations.AcousticBoundaryPromotesRepeatsOrEnds := by
  intro s hready
  rw [exec_of_ready hready, effectOf, silent, fireAcousticBoundary, afterBoundary_eq]
  rfl

/-! ### A tone while time passes -/

/-- Registers `b` that hold a tone and, with no request waiting in `a`, differ from `a` in `AC_T0` at most
(70_reset_and_hazards R328). -/
def Acoustic.ToneKept (a b : Acoustic) : Prop :=
  b.acType = .tone ∧ (a.qValid = false → b = { a with t0 := b.t0 })

theorem Acoustic.toneKept_refl {a : Acoustic} (h : a.acType = .tone) : a.ToneKept a := ⟨h, fun _ => rfl⟩

/-- With no request waiting, a boundary starts the next period of a tone (42_acoustic R198). -/
theorem Acoustic.boundary_of_repeat {a : Acoustic} (now : Time) (hty : a.acType = .tone) (hq : a.qValid = false) :
    a.boundary now = { a with t0 := now } := by
  simp [Acoustic.boundary, hq, hty]

/-- A boundary gives a tone the parameters of the waiting one, if any, and does not end it (42_acoustic R198). -/
theorem Acoustic.ToneKept.boundary {a b : Acoustic} (now : Time) (h : a.ToneKept b) : a.ToneKept (b.boundary now) := by
  obtain ⟨hty, hsame⟩ := h
  cases hq : b.qValid with
  | true =>
    refine ⟨by simpa [Acoustic.boundary, hq] using hty, fun hnone => ?_⟩
    rw [hsame hnone] at hq
    exact absurd (hnone.symm.trans hq) (by simp)
  | false =>
    rw [Acoustic.boundary_of_repeat now hty hq]
    exact ⟨hty, fun hnone => by rw [hsame hnone]⟩

theorem advanceTime_toneKept (dt : BitVec 24) {s : State} (h : s.ac.acType = .tone) :
    s.ac.ToneKept (advanceTime dt s).ac :=
  advanceLoop_induction (P := fun t => s.ac.ToneKept t.ac) (fun _ _ ht => ht)
    (fun a b r t ht => by
      rw [fireDue_ac]
      split
      · exact ht.boundary _
      · exact ht) _ _ (Acoustic.toneKept_refl h)

/-- Settles O40: no turn of the loop of `ADVANCE` ends a tone. -/
theorem toneNeverStopsByItself : Obligations.ToneNeverStopsByItself := fun s dt hready hty =>
  completes_iff.2 ⟨hready, advanceTime_toneKept dt (s := s.withFired []) hty⟩

/-! ### Requests -/

/-- The operand byte `a` of a word as the statements read it (30_encoding R103). -/
theorem aField_eq_byteAt (w : Word) : aField w = byteAt 16 w.toNat := aField_eq w

/-- The operand bit `b[0]` of a word as the statements read it (30_encoding R103). -/
theorem bitOperand_bField (w : Word) : bitOperand (bField w) = w.toNat.testBit 8 := bField_getLsbD w 0

/-- The operand byte `c` of a word as the statements read it (30_encoding R103). -/
theorem cField_eq_byteAt (w : Word) : cField w = byteAt 0 w.toNat := by
  rw [byteAt, pow_zero, Nat.div_one, cField_eq]

/-- Clamping is the minimum of the numbers (00_scope R13). -/
theorem clamp_eq_ofNat_min (v max : Byte) : clamp v max = BitVec.ofNat 8 (min v.toNat max.toNat) := by
  unfold clamp
  split
  next hlt => rw [Nat.min_eq_right (BitVec.lt_def.1 hlt).le, BitVec.ofNat_toNat, BitVec.setWidth_eq]
  next hle => rw [Nat.min_eq_left (BitVec.not_lt.1 hle), BitVec.ofNat_toNat, BitVec.setWidth_eq]

theorem acRequest_of_idle (r : Option Request) {s : State} (hrun : s.ctl.running = false) : acRequest r s = s := by
  cases r with
  | none => rfl
  | some r => rw [acRequest, acAccept, hrun, if_neg Bool.false_ne_true]

/-- An accepted request waits behind one of its type, and otherwise starts now (42_acoustic R194). -/
theorem acRequest_of_running (r : Request) {s : State} (hrun : s.ctl.running = true) : acRequest (some r) s =
    s.withAc (if s.ac.acType = r.acType then s.ac.enqueue r else .begin s.ctl.now r) := by
  rw [acRequest, acAccept, if_pos hrun]
  split <;> rfl

/-- A request operation as a whole: ignored if an operand is `zero` or the block is not running, else queued or started
(42_acoustic R194, R195). -/
theorem exec_of_request {i : Instr} {s : State} {q : Option Request} {r : Request} {zero : Prop} [Decidable zero]
    (hready : s.Ready) (heffect : effectOf i = silent (acRequest q)) (hrequest : q = if zero then none else some r) :
    exec i s = .next (
      if zero ∨ s.ctl.running = false then quiet s
      else if s.ac.acType = r.acType then { quiet s with ac := s.ac.enqueue r }
      else { quiet s with ac := .begin s.ctl.now r }) := by
  rw [exec_of_ready hready, heffect, hrequest, silent]
  by_cases hzero : zero
  · rw [if_pos hzero, if_pos (.inl hzero)]
    rfl
  · rw [if_neg hzero]
    cases hrun : s.ctl.running with
    | false =>
      rw [acRequest_of_idle _ (s := s.withFired []) hrun, if_pos (.inr rfl)]
      rfl
    | true =>
      rw [acRequest_of_running r (s := s.withFired []) hrun, if_neg (not_or.2 ⟨hzero, nofun⟩), State.withFired_ac]
      split <;> rfl

/-- Settles O35: a request operation whose count is at most 128. -/
theorem beepRequestIsClampedQueuedOrStarted : Obligations.BeepRequestIsClampedQueuedOrStarted := by
  refine ⟨encodes_of_reread (i := .reqBeep 0) rfl rfl fun w => ?_, fun s count hready => ?_⟩
  · rw [Instr.reread, aField_eq_byteAt]
  · have hrequest : beepRequest count =
        if count = 0 then none else some ⟨.beep, BitVec.ofNat 8 (min count.toNat 128), 0, false⟩ := by
      rw [beepRequest, clamp_eq_ofNat_min]
      rfl
    exact exec_of_request hready rfl hrequest

/-- Settles O36: a request operation whose count is at most 7 and whose interval is at most 15. -/
theorem toneRequestIsClampedQueuedOrStarted : Obligations.ToneRequestIsClampedQueuedOrStarted := by
  refine ⟨encodes_of_reread (i := .reqTone 0 false 0) rfl rfl fun w => ?_, fun s count continuous interval hready => ?_⟩
  · rw [Instr.reread, aField_eq_byteAt, bitOperand_bField, cField_eq_byteAt]
  · have hrequest : toneRequest count continuous interval =
        if count = 0 ∨ interval = 0 then none
        else some ⟨.tone, BitVec.ofNat 8 (min count.toNat 7), BitVec.ofNat 4 (min interval.toNat 15), continuous⟩ := by
      rw [toneRequest, clamp_eq_ofNat_min, clamp_eq_ofNat_min, BitVec.setWidth_ofNat_of_le (by decide)]
      rfl
    simp only [← or_assoc]
    exact exec_of_request hready rfl hrequest

/-- Settles O37: a request operation with no clamp, the duration being a byte. -/
theorem buzzerRequestIsQueuedOrStarted : Obligations.BuzzerRequestIsQueuedOrStarted := by
  refine ⟨encodes_of_reread (i := .reqBuzzer 0) rfl rfl fun w => ?_, fun s duration hready => ?_⟩
  · rw [Instr.reread, aField_eq_byteAt]
  · exact exec_of_request (r := ⟨.buzzer, duration, 0, false⟩) hready rfl rfl

end Sys2Proof.Machine

/-! PROOFS. Key Buffer (43_key_buffer): `PUSH`, `POP` and `OVF_READ` as whole next states, and where `OVERFLOW` is
cleared. -/

namespace Sys2Proof.Machine

open Sys2Proof.Statements

/-! ### `PUSH` -/

/-- An alarm code does not enter the ring (43_key_buffer R221). -/
theorem pushKey_of_alarm {code : Byte} {s : State} (h : s.cfg.keyClass code = .alarm) :
    pushKey code s = pushAlarm code s := if_pos h

/-- A code of any other class does not enter the alarm slot (43_key_buffer R221). -/
theorem pushKey_of_not_alarm {code : Byte} {s : State} (h : s.cfg.keyClass code ≠ .alarm) :
    pushKey code s = pushRing code s := if_neg h

theorem pushAlarm_of_occupied (code : Byte) {s : State} (h : s.alm.detected = true) :
    pushAlarm code s = s.withKb { s.kb with overflow := true } := if_pos h

theorem pushAlarm_of_free (code : Byte) {s : State} (h : s.alm.detected = false) :
    pushAlarm code s = s.withAlm { s.alm with detected := true, code := code } := if_neg (by simp [h])

/-- `PUSH` writes the alarm slot and the Key Buffer only (43_key_buffer R221). -/
theorem pushKey_frame (code : Byte) (s : State) :
    pushKey code s = { s with alm := (pushKey code s).alm, kb := (pushKey code s).kb } :=
  State.eq_of_parts (pushKey_cfg s code) (pushKey_ctl s code) (pushKey_smp s code) (pushKey_enc s code) rfl rfl
    (pushKey_ac s code) (pushKey_itp s code) (pushKey_inputs s code) (pushKey_result s code) (pushKey_fired s code)

/-- Settles O41: the class of the code chooses the slot or the ring, and each takes the code or sets `OVERFLOW`. -/
theorem pushAcceptsOrSetsOverflow : Obligations.PushAcceptsOrSetsOverflow := by
  refine ⟨encodes_of_reread (i := .push 0) rfl rfl fun w => ?_,
    fun s code hready hstorage => completes_iff.2 ⟨hready, ?_⟩⟩
  · rw [Instr.reread, aField_eq_byteAt]
  · rw [effectOf, silent]
    refine ⟨congrArg (State.withResult · 0) (pushKey_frame code (s.withFired [])), fun halarm hdet => ?_,
      fun halarm hdet => ?_, fun hring hfull => ?_, fun hring hfree => ?_⟩
    · rw [pushKey_of_alarm (s := s.withFired []) halarm, pushAlarm_of_occupied code (s := s.withFired []) hdet]
      exact ⟨rfl, rfl⟩
    · rw [pushKey_of_alarm (s := s.withFired []) halarm, pushAlarm_of_free code (s := s.withFired []) hdet]
      exact ⟨rfl, rfl⟩
    · rw [pushKey_of_not_alarm (s := s.withFired []) hring, pushRing_of_full code (s := s.withFired []) hfull]
      exact ⟨rfl, rfl⟩
    · rw [pushKey_of_not_alarm (s := s.withFired []) hring, pushRing_of_free code (s := s.withFired []) hfree]
      exact ⟨rfl, rfl, Memory.read_write_same code hstorage.1, fun a ha => Memory.read_write_other code ha.symm⟩

/-! ### `POP` -/

theorem popKey_of_empty {s : State} (h : s.kbCount = 0) : popKey s = s.log (.pop s.ctl.now none) := by
  rw [popKey, if_pos h, State.popped, if_pos h]

/-- What a pop leaves in the ring reads the Key Buffer and the configuration only. -/
theorem popKey_queue_of_eq {s t : State} (hcfg : t.cfg = s.cfg) (hkb : t.kb = s.kb) :
    (popKey t).queue = (popKey s).queue :=
  queue_of_eq (by rw [popKey_cfg, popKey_cfg, hcfg]) (popKey_kb_of_eq hcfg hkb)

/-- Settles O42: the read pointer moves past the entry that `peek()` shows. -/
theorem popReturnsTheOldestEntry : Obligations.PopReturnsTheOldestEntry := by
  intro s hready
  refine ⟨fun hempty => ?_, fun h q hqueue => completes_iff.2 ⟨hready, ?_⟩⟩
  · rw [exec_of_ready hready, effectOf, silent,
      popKey_of_empty (s := s.withFired []) (State.queue_eq_nil_iff.1 hempty)]
    rfl
  · obtain ⟨hv, hformed⟩ := hready
    obtain ⟨-, hring, -⟩ := State.formed_iff.1 hformed
    have hne : s.kbCount ≠ 0 := fun hzero =>
      List.cons_ne_nil h q (hqueue.symm.trans (State.queue_eq_nil_iff.2 hzero))
    obtain ⟨hpeek, htail⟩ := List.cons.inj ((queue_eq_peek_cons hv hring hne).symm.trans hqueue)
    constructor
    · rw [effectOf, silent, popKey_of_nonempty (s := s.withFired []) hne, ← hpeek]
      rfl
    · calc (finish (silent popKey (s.withFired []))).queue
          = (popKey (s.withFired [])).queue := queue_of_eq rfl rfl
        _ = (popKey s).queue := popKey_queue_of_eq rfl rfl
        _ = q := htail

/-! ### `OVERFLOW` -/

theorem clearOverflow_eq (clear : Bool) (s : State) :
    clearOverflow clear s = s.withKb { s.kb with overflow := s.kb.overflow && !clear } := by
  cases clear with
  | false => rw [Bool.not_false, Bool.and_true]; rfl
  | true => rw [Bool.not_true, Bool.and_false]; rfl

/-- A `PUSH` sets the flag or leaves it as it is (43_key_buffer R221). -/
theorem pushKey_overflow (code : Byte) {s : State} (h : s.kb.overflow = true) : (pushKey code s).kb.overflow = true := by
  unfold pushKey
  split
  · unfold pushAlarm
    split
    · rfl
    · exact h
  · unfold pushRing
    split
    · rfl
    · exact h

/-- A `POP` does not write the flag (43_key_buffer R224). -/
theorem popKey_overflow (s : State) : (popKey s).kb.overflow = s.kb.overflow := by
  rw [popKey_kb]
  split <;> rfl

/-- An edge may pop an entry, but does not write the flag (43_key_buffer R224). -/
theorem clockEdge_overflow (data : Bool) (s : State) : (clockEdge data s).kb.overflow = s.kb.overflow := by
  rcases clockEdge_kb data s with hkb | hkb
  · rw [hkb]
  · rw [hkb, popKey_overflow]

/-- Only `PUSH`, `POP`, `OVF_READ`, an edge and `INITIALIZE` write the Key Buffer (43_key_buffer R221 to R224, 41_key_encoder
R165). -/
theorem effectOf_kb {i : Instr} (hinit : ∀ a b c, i ≠ .initialise a b c) (hpush : ∀ code, i ≠ .push code)
    (hpop : i ≠ .pop) (hread : ∀ clear, i ≠ .ovfRead clear) (hedge : ∀ data, i ≠ .clockEdge data) (s : State) :
    (effectOf i s).1.kb = s.kb := by
  cases i with
  | initialise a b c => exact absurd rfl (hinit a b c)
  | push code => exact absurd rfl (hpush code)
  | pop => exact absurd rfl hpop
  | ovfRead clear => exact absurd rfl (hread clear)
  | clockEdge data => exact absurd rfl (hedge data)
  | _ => simp [effectOf]

/-- The flag is sticky: of the operations that write the Key Buffer, only `OVF_READ 1` and `INITIALIZE` clear it
(43_key_buffer R224). -/
theorem effectOf_overflow {i : Instr} (hread : i ≠ .ovfRead true) (hinit : ∀ a b c, i ≠ .initialise a b c) {s : State}
    (h : s.kb.overflow = true) : (effectOf i s).1.kb.overflow = true := by
  cases i with
  | initialise a b c => exact absurd rfl (hinit a b c)
  | push code => exact pushKey_overflow code h
  | pop => exact (popKey_overflow s).trans h
  | clockEdge data => exact (clockEdge_overflow data s).trans h
  | ovfRead clear =>
    cases clear with
    | false => exact h
    | true => exact absurd rfl hread
  | _ => rwa [effectOf_kb (by simp) (by simp) (by simp) (by simp) (by simp)]

/-- Settles O43: `OVF_READ` writes the flag only, and every other operation but `INITIALIZE` keeps it set. -/
theorem overflowIsStickyAndReadable : Obligations.OverflowIsStickyAndReadable := by
  refine ⟨encodes_of_reread (i := .ovfRead false) rfl rfl fun w => ?_, fun s clear hready => ?_,
    fun i s t hexec hset hread hinit => ?_⟩
  · rw [Instr.reread, bitOperand, aField_getLsbD]
    rfl
  · rw [exec_of_ready hready, effectOf, readOverflow, clearOverflow_eq]
    rfl
  · obtain ⟨-, -, rfl⟩ := exec_eq_next.1 hexec
    exact effectOf_overflow (s := s.withFired []) hread hinit hset

end Sys2Proof.Machine

/-! PROOFS. Frame Interpreter (44_frame_interpreter): `POLL` with and without a ready frame, the lights of the routed group,
a frame polled twice, and the four operations that read the frame, the key and the indicators. -/

namespace Sys2Proof.Machine

open Sys2Proof.Statements

/-! ### One indicator -/

/-- The decode rule as the statements write it out (44_frame_interpreter R242). -/
theorem light_eq_indicatorOf (status blink : Bool) : light status blink = indicatorOf status blink := by
  cases status <;> cases blink <;> rfl

theorem refresh_of_startup (previous current : Bool × Bool) (old : Indicator) :
    refresh true previous current old = light current.1 current.2 := rfl

theorem refresh_of_ne {previous current : Bool × Bool} (old : Indicator) (h : current ≠ previous) :
    refresh false previous current old = light current.1 current.2 := if_pos h

/-- An unchanged pair of bits keeps the indicator: "redundant updates" are suppressed (44_frame_interpreter R243). -/
@[simp] theorem refresh_same (pair : Bool × Bool) (old : Indicator) : refresh false pair pair old = old :=
  if_neg (not_not.2 rfl)

theorem changes_of_startup (previous current : Bool × Bool) (old : Indicator) :
    changes true previous current old = false := rfl

theorem changes_of_ne {previous current : Bool × Bool} (old : Indicator) (h : current ≠ previous) :
    changes false previous current old = decide (light current.1 current.2 ≠ old) := by
  rw [changes, decide_eq_true h, Bool.not_false, Bool.and_true, Bool.true_and]

@[simp] theorem changes_same (seed : Bool) (pair : Bool × Bool) (old : Indicator) :
    changes seed pair pair old = false := by
  simp [changes]

/-! ### Masks and byte pairs -/

theorem maskOf_getLsbD (f : Nat → Bool) {j : Nat} (hj : j < 16) : (maskOf f).getLsbD j = f j := by
  have hlist : ((List.range 16).map f).getD j false = f j := by simp [hj]
  exact BitVec.getLsbD_ofBoolListLE.trans hlist

@[simp] theorem maskOf_false : maskOf (fun _ => false) = 0#16 := by decide

/-- Writing back what an element holds changes nothing. -/
@[simp] theorem BytePair.set_get (p : BytePair) (i : BitVec 1) : p.set i (p.get i) = p := by
  rcases index_cases i with rfl | rfl <;> rfl

/-! ### A light byte -/

/-- The status bit and the blink bit of indicator `j` (44_frame_interpreter R243). -/
def Interpreter.pairAt (p : Interpreter) (j : Nat) : Bool × Bool :=
  lightPair (p.st.get (BitVec.ofNat 1 (j / 8))) (p.bl.get (BitVec.ofNat 1 (j / 8))) (j % 8)

/-- The pair of bits as the statements read it from the registers. -/
theorem Interpreter.pairAt_eq (p : Interpreter) (j : Fin 16) : p.pairAt j.val =
    if decide (8 ≤ j.val) then (p.st.b1.getLsbD (j.val % 8), p.bl.b1.getLsbD (j.val % 8))
    else (p.st.b0.getLsbD (j.val % 8), p.bl.b0.getLsbD (j.val % 8)) := by
  unfold Interpreter.pairAt
  by_cases hzone : 8 ≤ j.val
  · have hgroup : j.val / 8 = 1 := by omega
    rw [hgroup, if_pos (decide_eq_true hzone)]
    rfl
  · have hgroup : j.val / 8 = 0 := by omega
    rw [hgroup, if_neg (by simpa using hzone)]
    rfl

/-- In its group a light byte refreshes an indicator from its pairs of bits before and after (44_frame_interpreter R243). -/
theorem applyLights_of_inGroup {g : BitVec 1} (isBlink : Bool) (v : Byte) (p : Interpreter) {j : Fin 16}
    (h : j.val / 8 = g.toNat) :
    (p.applyLights g isBlink v).ind[j]
        = refresh p.startup (p.pairAt j.val) ((p.applyLights g isBlink v).pairAt j.val) p.ind[j]
      ∧ (p.applyLights g isBlink v).indChanged.getLsbD j.val = (p.indChanged.getLsbD j.val
        || changes p.startup (p.pairAt j.val) ((p.applyLights g isBlink v).pairAt j.val) p.ind[j]) := by
  have hidx : BitVec.ofNat 1 (j.val / 8) = g := by rw [h, BitVec.ofNat_toNat, BitVec.setWidth_eq]
  simp only [Interpreter.pairAt, hidx, Interpreter.applyLights, BitVec.getLsbD_or, maskOf_getLsbD _ j.isLt]
  simp [h]

/-- A light byte leaves the indicators of the other group and their change bits (44_frame_interpreter R243). -/
theorem applyLights_of_otherGroup {g : BitVec 1} (isBlink : Bool) (v : Byte) (p : Interpreter) {j : Fin 16}
    (h : j.val / 8 ≠ g.toNat) :
    (p.applyLights g isBlink v).ind[j] = p.ind[j]
      ∧ (p.applyLights g isBlink v).indChanged.getLsbD j.val = p.indChanged.getLsbD j.val := by
  simp only [Interpreter.applyLights, BitVec.getLsbD_or, maskOf_getLsbD _ j.isLt]
  simp [h]

/-- After the start-up cycle a light byte that its register already holds changes nothing (44_frame_interpreter R243). -/
theorem applyLights_of_held {g : BitVec 1} {isBlink : Bool} {v : Byte} {p : Interpreter} (hstart : p.startup = false)
    (h : (if isBlink then p.bl else p.st).get g = v) : p.applyLights g isBlink v = p := by
  subst h
  cases isBlink <;> simp [Interpreter.applyLights, hstart] <;> rw [← hstart]

/-! ### The routed light byte -/

/-- The light byte that a route carries is for the group of indicator `j` (44_frame_interpreter R243). -/
def RouteReaches (r : Route) (j : Nat) : Prop := ∃ g isBlink, Route.target r = some (g, isBlink) ∧ j / 8 = g.toNat

theorem routeReaches_of_target {r : Route} {g : BitVec 1} {isBlink : Bool} (h : Route.target r = some (g, isBlink))
    {j : Nat} : RouteReaches r j ↔ j / 8 = g.toNat := by
  simp [RouteReaches, h]

/-- The group of a routed light byte as the statements say it. -/
theorem routeReaches_iff {r : Route} (hr : r ≠ .none) (j : Fin 16) :
    RouteReaches r j.val ↔ decide (8 ≤ j.val) = decide (r = .zone ∨ r = .zoneBlink) := by
  cases r with
  | none => exact absurd rfl hr
  | status | statusBlink | zone | zoneBlink =>
    rw [routeReaches_of_target rfl]
    revert j
    decide

/-- The status registers after a light byte: the routed one takes it (44_frame_interpreter R243). -/
theorem lights_st (r : Route) (v : Byte) (p : Interpreter) :
    (p.lights r v).st = ⟨if r = .status then v else p.st.b0, if r = .zone then v else p.st.b1⟩ := by
  cases r <;> rfl

/-- The blink registers after a light byte: the routed one takes it (44_frame_interpreter R243). -/
theorem lights_bl (r : Route) (v : Byte) (p : Interpreter) :
    (p.lights r v).bl = ⟨if r = .statusBlink then v else p.bl.b0, if r = .zoneBlink then v else p.bl.b1⟩ := by
  cases r <;> rfl

@[simp] theorem lights_keyValue (r : Route) (v : Byte) (p : Interpreter) : (p.lights r v).keyValue = p.keyValue := by
  cases r <;> rfl

@[simp] theorem lights_keyAvailable (r : Route) (v : Byte) (p : Interpreter) :
    (p.lights r v).keyAvailable = p.keyAvailable := by
  cases r <;> rfl

theorem lights_of_target {r : Route} {g : BitVec 1} {isBlink : Bool} (h : Route.target r = some (g, isBlink)) (v : Byte)
    (p : Interpreter) : p.lights r v = p.applyLights g isBlink v := by
  rw [Interpreter.lights, h]

theorem lights_of_reaches {r : Route} (v : Byte) (p : Interpreter) {j : Fin 16} (h : RouteReaches r j.val) :
    (p.lights r v).ind[j] = refresh p.startup (p.pairAt j.val) ((p.lights r v).pairAt j.val) p.ind[j]
      ∧ (p.lights r v).indChanged.getLsbD j.val = (p.indChanged.getLsbD j.val
        || changes p.startup (p.pairAt j.val) ((p.lights r v).pairAt j.val) p.ind[j]) := by
  obtain ⟨g, isBlink, htarget, hgroup⟩ := h
  rw [lights_of_target htarget]
  exact applyLights_of_inGroup isBlink v p hgroup

theorem lights_of_not_reaches {r : Route} (v : Byte) (p : Interpreter) {j : Fin 16} (h : ¬ RouteReaches r j.val) :
    (p.lights r v).ind[j] = p.ind[j] ∧ (p.lights r v).indChanged.getLsbD j.val = p.indChanged.getLsbD j.val := by
  cases htarget : Route.target r with
  | none =>
    rw [Interpreter.lights, htarget]
    exact ⟨rfl, rfl⟩
  | some target =>
    obtain ⟨g, isBlink⟩ := target
    rw [lights_of_target htarget]
    exact applyLights_of_otherGroup isBlink v p (mt (routeReaches_of_target htarget).2 h)

/-- The register that the route names, if any, holds the light byte. -/
def Interpreter.Holds (r : Route) (v : Byte) (p : Interpreter) : Prop :=
  ∀ g isBlink, Route.target r = some (g, isBlink) → (if isBlink then p.bl else p.st).get g = v

theorem lights_holds (r : Route) (v : Byte) (p : Interpreter) : (p.lights r v).Holds r v := by
  intro g isBlink htarget
  rw [lights_of_target htarget]
  cases isBlink <;> exact BytePair.get_set_same _ g v

theorem lights_of_holds {r : Route} {v : Byte} {p : Interpreter} (hstart : p.startup = false) (h : p.Holds r v) :
    p.lights r v = p := by
  cases htarget : Route.target r with
  | none => rw [Interpreter.lights, htarget]
  | some target =>
    obtain ⟨g, isBlink⟩ := target
    rw [lights_of_target htarget, applyLights_of_held hstart (h g isBlink htarget)]

/-! ### The interpretation of a frame -/

/-- The interpreter after step (b) of `POLL`: the change bits cleared, and the light byte applied
(44_frame_interpreter R241). -/
def State.lit (s : State) : Interpreter :=
  ({ s.itp with indChanged := 0 } : Interpreter).lights (s.cfg.lightRoute s.smp.cmdFrame.b0) s.smp.cmdFrame.b1

/-- Step (b) of `POLL` in the routed group (44_frame_interpreter R243). -/
theorem lit_of_reaches {s : State} {j : Fin 16} (h : RouteReaches (s.cfg.lightRoute s.smp.cmdFrame.b0) j.val) :
    s.lit.ind[j] = refresh s.itp.startup (s.itp.pairAt j.val) (s.lit.pairAt j.val) s.itp.ind[j]
      ∧ s.lit.indChanged.getLsbD j.val
        = changes s.itp.startup (s.itp.pairAt j.val) (s.lit.pairAt j.val) s.itp.ind[j] := by
  obtain ⟨hind, hchanged⟩ := lights_of_reaches s.smp.cmdFrame.b1 { s.itp with indChanged := 0 } h
  have hclear (x : Bool) : ((0#16).getLsbD j.val || x) = x := by rw [BitVec.getLsbD_zero, Bool.false_or]
  exact ⟨hind, hchanged.trans (hclear _)⟩

/-- Step (b) of `POLL` outside the routed group (44_frame_interpreter R243). -/
theorem lit_of_not_reaches {s : State} {j : Fin 16} (h : ¬ RouteReaches (s.cfg.lightRoute s.smp.cmdFrame.b0) j.val) :
    s.lit.ind[j] = s.itp.ind[j] ∧ s.lit.indChanged.getLsbD j.val = false := by
  obtain ⟨hind, hchanged⟩ := lights_of_not_reaches s.smp.cmdFrame.b1 { s.itp with indChanged := 0 } h
  exact ⟨hind, hchanged.trans BitVec.getLsbD_zero⟩

/-- Steps (b) and (c) of `POLL` write different registers (44_frame_interpreter R241). -/
theorem interpretFrame_eq (s : State) : interpretFrame s = { s.lit with
    startup := false
    keyValue := if s.smp.modFrame.b0 = s.cfg.modIdle then s.itp.keyValue else s.smp.modFrame.b0
    keyAvailable := if s.smp.modFrame.b0 = s.cfg.modIdle then s.itp.keyAvailable else true } := by
  have hvalue : s.lit.keyValue = s.itp.keyValue := lights_keyValue ..
  have havailable : s.lit.keyAvailable = s.itp.keyAvailable := lights_keyAvailable ..
  change ({ s.lit.echo s.cfg.modIdle s.smp.modFrame.b0 with startup := false } : Interpreter) = _
  rw [← hvalue, ← havailable, Interpreter.echo, ite_not]
  split <;> rfl

/-- Interpreting the same frame again changes no light (44_frame_interpreter R243): the routed register holds the light byte
already, and the start-up cycle is over. -/
theorem interpretFrame_again {s t : State} (hcfg : t.cfg = s.cfg) (hcmd : t.smp.cmdFrame = s.smp.cmdFrame)
    (hitp : t.itp = interpretFrame s) :
    (interpretFrame t).ind = t.itp.ind ∧ (interpretFrame t).indChanged = 0
      ∧ (interpretFrame t).st = t.itp.st ∧ (interpretFrame t).bl = t.itp.bl := by
  have hheld : (interpretFrame s).Holds (s.cfg.lightRoute s.smp.cmdFrame.b0) s.smp.cmdFrame.b1 := by
    rw [interpretFrame_eq]
    exact lights_holds _ _ { s.itp with indChanged := 0 }
  have hlit : t.lit = { t.itp with indChanged := 0 } := by
    rw [State.lit, hcfg, hcmd, hitp]
    exact lights_of_holds rfl hheld
  rw [interpretFrame_eq, hlit]
  exact ⟨rfl, rfl, rfl, rfl⟩

/-! ### `POLL` -/

/-- `POLL` of a ready frame as a whole (44_frame_interpreter R241). -/
theorem exec_poll_of_frame {s : State} (hready : s.Ready) (hframe : s.smp.frameReady = true) :
    exec .poll s = .next { s with
      smp := { s.smp with frameReady := false }, itp := interpretFrame s, result := 1, fired := [] } := by
  rw [exec_of_ready hready, effectOf, pollFrame, State.withFired_smp, hframe, if_pos rfl]
  rfl

/-- Settles O46: without a ready frame `POLL` takes the branch that changes nothing. -/
theorem pollWithNothingReady : Obligations.PollWithNothingReady := by
  intro s hready hframe
  rw [exec_of_ready hready, effectOf, pollFrame, State.withFired_smp, hframe, if_neg Bool.false_ne_true]
  rfl

/-- Settles O47: the key registers follow the module byte, and without a route no light byte is applied. -/
theorem pollConsumesTheReadyFrame : Obligations.PollConsumesTheReadyFrame := by
  refine ⟨encodes_of_reread (i := .poll) rfl rfl fun _ => rfl, fun s hready hframe =>
    ⟨_, exec_poll_of_frame hready hframe, rfl, rfl, ?_⟩⟩
  simp only [interpretFrame_eq]
  refine ⟨fun hidle => ⟨if_pos hidle, if_pos hidle⟩, fun hkey => ⟨if_neg hkey, if_neg hkey⟩, fun hroute => ?_⟩
  rw [State.lit, hroute]
  exact ⟨rfl, rfl, rfl, rfl⟩

/-- Settles O48: the three clauses of the routed group are the branches of the refresh of one indicator. -/
theorem pollRecomputesTheRoutedGroup : Obligations.PollRecomputesTheRoutedGroup := by
  intro s hready hframe r v hr
  refine ⟨_, exec_poll_of_frame hready hframe, ?_⟩
  simp only [interpretFrame_eq]
  refine ⟨lights_st r v _, lights_bl r v _, fun j => ?_⟩
  simp only [← Interpreter.pairAt_eq, ← light_eq_indicatorOf]
  by_cases hreach : RouteReaches r j.val
  · obtain ⟨hind, hchanged⟩ := lit_of_reaches hreach
    rw [if_pos ((routeReaches_iff hr j).1 hreach), hind, hchanged]
    refine ⟨fun hseed => ?_, fun hrun hne => ?_, fun hrun hsame => ?_⟩
    · rw [hseed]
      exact ⟨refresh_of_startup _ _ _, changes_of_startup _ _ _⟩
    · rw [hrun]
      exact ⟨refresh_of_ne _ hne, changes_of_ne _ hne⟩
    · rw [hrun, hsame]
      exact ⟨refresh_same _ _, changes_same _ _ _⟩
  · rw [if_neg (mt (routeReaches_iff hr j).2 hreach)]
    exact lit_of_not_reaches hreach

/-- Settles O49: the second `POLL` interprets the frame that the first one did. -/
theorem secondIdenticalFrameChangesNoLight : Obligations.SecondIdenticalFrameChangesNoLight := by
  intro s hready hframe
  refine ⟨_, exec_poll_of_frame hready hframe, _, exec_poll_of_frame hready rfl, ?_⟩
  exact interpretFrame_again (s := s) rfl rfl rfl

/-! ### The read operations -/

/-- A word built of two fields as a number. -/
theorem toNat_append_eq_add {m n : Nat} (x : BitVec m) (y : BitVec n) :
    (x ++ y).toNat = x.toNat * 2 ^ n + y.toNat := by
  rw [BitVec.toNat_append, ← Nat.shiftLeft_add_eq_or_of_lt y.isLt, Nat.shiftLeft_eq]

theorem eq_ofNat_of_toNat_eq {w n : Nat} {x : BitVec w} (h : x.toNat = n) : x = BitVec.ofNat w n := by
  rw [← h, BitVec.ofNat_toNat, BitVec.setWidth_eq]

/-- The four bytes as one number (44_frame_interpreter R246). -/
theorem frameWord_eq_ofNat (p : Sampler) : p.frameWord = BitVec.ofNat 32 (p.cmdFrame.b0.toNat * 2 ^ 24
    + p.cmdFrame.b1.toNat * 2 ^ 16 + p.modFrame.b0.toNat * 2 ^ 8 + p.modFrame.b1.toNat) := by
  apply eq_ofNat_of_toNat_eq
  simp only [Sampler.frameWord, toNat_append_eq_add]
  omega

/-- The flag above the key value as one number (44_frame_interpreter R247). -/
theorem keyWord_eq_ofNat (p : Interpreter) :
    p.keyWord = BitVec.ofNat 32 (p.keyAvailable.toNat * 2 ^ 8 + p.keyValue.toNat) := by
  apply eq_ofNat_of_toNat_eq
  simp only [Interpreter.keyWord, toNat_append_eq_add, BitVec.toNat_ofBool, BitVec.ofNat_eq_ofNat, BitVec.toNat_zero]
  omega

/-- The change bit above the code of the indicator as one number (44_frame_interpreter R249). -/
theorem indicatorWord_eq_ofNat (p : Interpreter) (j : Fin 16) : p.indicatorWord (BitVec.ofNat 4 j.val)
    = BitVec.ofNat 32 (p.ind[j].code.toNat + (p.indChanged.getLsbD j.val).toNat * 4) := by
  have hindex : (BitVec.ofNat 4 j.val).toNat = j.val := Nat.mod_eq_of_lt j.isLt
  have hind : p.ind[j.val]?.getD .off = p.ind[j] := by simp
  apply eq_ofNat_of_toNat_eq
  simp only [Interpreter.indicatorWord, hindex, hind, toNat_append_eq_add, BitVec.toNat_ofBool,
    BitVec.ofNat_eq_ofNat, BitVec.toNat_zero]
  omega

/-- The index operand `a[3:0]` of a word as the statements read it (30_encoding R105). -/
theorem indexOperand_aField (w : Word) : indexOperand (aField w) = BitVec.ofNat 4 (w.toNat / 2 ^ 16) := by
  rw [aField_eq]
  apply BitVec.eq_of_toNat_eq
  simp only [indexOperand, BitVec.extractLsb'_toNat, BitVec.toNat_ofNat, Nat.shiftRight_zero]
  omega

/-- Settles O51: the operation leaves the state and answers the four bytes. -/
theorem frameReadReturnsTheFourBytes : Obligations.FrameReadReturnsTheFourBytes := by
  refine ⟨encodes_of_reread (i := .frameRead) rfl rfl fun _ => rfl, fun s hready => ?_⟩
  rw [exec_of_ready hready, effectOf, readFrame, frameWord_eq_ofNat]
  rfl

/-- Settles O52: the operation leaves the state and answers the flag and the value. -/
theorem keyReadReturnsFlagAndValue : Obligations.KeyReadReturnsFlagAndValue := by
  refine ⟨encodes_of_reread (i := .keyRead) rfl rfl fun _ => rfl, fun s hready => ?_⟩
  rw [exec_of_ready hready, effectOf, readKey, keyWord_eq_ofNat]
  rfl

/-- Settles O53: the operation writes the flag only. -/
theorem keyClearKeepsTheValue : Obligations.KeyClearKeepsTheValue := by
  refine ⟨encodes_of_reread (i := .keyClear) rfl rfl fun _ => rfl, fun s hready => ?_⟩
  rw [exec_of_ready hready, effectOf, silent, clearKey]
  rfl

/-- Settles O54: the operation leaves the state and answers the code and the change bit. -/
theorem indicatorReadReturnsStateAndChange : Obligations.IndicatorReadReturnsStateAndChange := by
  refine ⟨encodes_of_reread (i := .indRead 0) rfl rfl fun w => ?_, fun s j hready => ?_⟩
  · rw [Instr.reread, indexOperand_aField]
  · rw [exec_of_ready hready, effectOf, readIndicator, State.withFired_itp, indicatorWord_eq_ofNat]
    cases s.itp.ind[j] <;> rfl

end Sys2Proof.Machine

/-! PROOFS. Control (45_control): `INITIALIZE` and `START` as whole next states. -/

namespace Sys2Proof.Machine

open Sys2Proof.Statements

/-- The operand byte `b` of a word as the statements read it (30_encoding R103). -/
theorem bField_eq_byteAt (w : Word) : bField w = byteAt 8 w.toNat := bField_eq w

/-- The operand bit `a[0]` of a word as the statements read it (30_encoding R103). -/
theorem bitOperand_aField (w : Word) : bitOperand (aField w) = w.toNat.testBit 16 := aField_getLsbD w 0

/-- The control registers at binding, each at its value (45_control R271). -/
theorem Control.bind_eq (clockPin readPin writePin : Byte) (x : Control) : x.bind clockPin readPin writePin =
    { now := x.now, bound := true, running := false, traceEn := false, pinClk := clockPin, pinRd := readPin,
      pinWr := writePin } := rfl

/-- Binding is power-on reset under the same configuration, but for the control registers and the model's own fields
(45_control R271). -/
theorem initialiseBlock_eq_resetWith (clockPin readPin writePin : Byte) (s : State) :
    initialiseBlock clockPin readPin writePin s = { State.resetWith s.cfg with
      ctl := s.ctl.bind clockPin readPin writePin
      inputs := s.inputs, result := s.result, fired := s.fired } := rfl

/-- `START` takes effect in a bound block that is not running (45_control R272). -/
theorem startBlock_of_armable (trace : Bool) {s : State} (h : s.ctl.bound = true ∧ s.ctl.running = false) :
    startBlock trace s = { s with
      ctl := { s.ctl with running := true, traceEn := trace }
      smp := { s.smp with lastEdge := s.ctl.now, silArmed := true } } := by
  obtain ⟨hbound, hrun⟩ := h
  rw [startBlock, hbound, hrun, if_neg (by decide)]
  rfl

/-- `START` has no effect in a block that is unbound or already running (45_control R272). -/
theorem startBlock_of_not_armable (trace : Bool) {s : State} (h : ¬ (s.ctl.bound = true ∧ s.ctl.running = false)) :
    startBlock trace s = s := by
  have hblocked : s.ctl.bound = false ∨ s.ctl.running = true := by
    rwa [not_and_or, Bool.not_eq_true, Bool.not_eq_false] at h
  exact if_pos hblocked

/-- Settles O10: every sub-block but control is at reset, and control is at reset but for `NOW`, `BOUND` and the pins. -/
theorem initializeRestoresReset : Obligations.InitializeRestoresReset := by
  refine ⟨encodes_of_reread (i := .initialise 0 0 0) rfl rfl fun w => ?_, fun s a b c hready => ?_⟩
  · rw [Instr.reread, aField_eq_byteAt, bField_eq_byteAt, cField_eq_byteAt]
  · rw [exec_of_ready hready, effectOf, silent, initialiseBlock_eq_resetWith, Control.bind_eq]
    rfl

/-- Settles O11: the guard of `START` splits the states into those it arms and those it leaves alone. -/
theorem startArmsOnceBound : Obligations.StartArmsOnceBound := by
  refine ⟨encodes_of_reread (i := .start false) rfl rfl fun w => ?_, fun s trace hready => ?_⟩
  · rw [Instr.reread, bitOperand_aField]
  · rw [exec_of_ready hready, effectOf, silent]
    split
    next harm =>
      rw [startBlock_of_armable trace (s := s.withFired []) harm]
      rfl
    next hblocked =>
      rw [startBlock_of_not_armable trace (s := s.withFired []) hblocked]
      rfl

end Sys2Proof.Machine

/-! PROOFS. Exceptions (60_exceptions): no step stops under the invariant, and the write sets of the two contexts. -/

namespace Sys2Proof.Machine

/-! ### No step stops -/

/-- Settles O56: the invariant holds in ready states only, where an operation and a reserved word both complete. -/
theorem stepNeverStopsUnderTheInvariant : Obligations.StepNeverStopsUnderTheInvariant := by
  intro s hinv
  cases hinputs : s.inputs with
  | nil => exact ⟨s, step_of_no_stimulus hinputs⟩
  | cons w ws =>
    have hready : (s.withInputs ws).Ready := hinv.ready
    cases hdec : decodeStimulus w with
    | ok i => exact ⟨_, (step_of_stimulus hinputs hdec).trans (exec_of_ready hready i)⟩
    | error r => exact ⟨_, (step_of_reserved hinputs hdec).trans (reservedWord_of_ready hready)⟩

/-! ### What no operation writes -/

@[simp] theorem pollFrame_inputs (s : State) : (pollFrame s).1.inputs = s.inputs := by
  rw [pollFrame_fst]; split <;> rfl

@[simp] theorem initialiseBlock_inputs (clockPin readPin writePin : Byte) (s : State) :
    (initialiseBlock clockPin readPin writePin s).inputs = s.inputs := rfl

/-- No operation writes the stimulus stream (log 3). -/
@[simp] theorem effectOf_inputs (i : Instr) (s : State) : (effectOf i s).1.inputs = s.inputs := by
  cases i <;> simp [effectOf]

/-! ### What the host leaves to the bus -/

/-- From `s` to `t` the host has written at most its own side of the state (60_exceptions R286): of the sampler, a cleared
`FRAME_READY` and the countdown of `START`; of the alarm path, the slot of a `PUSH`. -/
structure State.HostWrites (s t : State) : Prop where
  smp : t.smp = { s.smp with frameReady := t.smp.frameReady, lastEdge := t.smp.lastEdge, silArmed := t.smp.silArmed }
  enc : t.enc = s.enc
  rd : t.kb.rd = s.kb.rd
  now : t.ctl.now = s.ctl.now
  alm : t.alm = { s.alm with detected := t.alm.detected, code := t.alm.code }
  ready : s.smp.frameReady = false → t.smp.frameReady = false
  detected : s.alm.detected = true → t.alm.detected = true

/-- An operation that leaves the sampler, the encoder, `KB_RD`, `NOW` and the alarm path alone keeps to the host's side. -/
theorem State.hostWrites_of_eq {s t : State} (hsmp : t.smp = s.smp) (henc : t.enc = s.enc) (hrd : t.kb.rd = s.kb.rd)
    (hnow : t.ctl.now = s.ctl.now) (halm : t.alm = s.alm) : s.HostWrites t where
  smp := by rw [hsmp]
  enc := henc
  rd := hrd
  now := hnow
  alm := by rw [halm]
  ready := by rw [hsmp]; exact id
  detected := by rw [halm]; exact id

theorem State.HostWrites.refl (s : State) : s.HostWrites s := State.hostWrites_of_eq rfl rfl rfl rfl rfl

/-- `START` writes the mode bits and restarts the countdown (45_control R272). -/
theorem startBlock_hostWrites (trace : Bool) (s : State) : s.HostWrites (startBlock trace s) := by
  unfold startBlock
  split
  · exact .refl s
  · exact ⟨rfl, rfl, rfl, rfl, rfl, id, id⟩

/-- `POLL` clears `FRAME_READY` and leaves the buffers it interprets (44_frame_interpreter R241). -/
theorem pollFrame_hostWrites (s : State) : s.HostWrites (pollFrame s).1 := by
  rw [pollFrame_fst]
  split
  · exact ⟨rfl, rfl, rfl, rfl, rfl, fun _ => rfl, id⟩
  · exact .refl s

/-- An alarm code fills a free slot and does not empty an occupied one (43_key_buffer R221). -/
theorem pushAlarm_hostWrites (code : Byte) (s : State) : s.HostWrites (pushAlarm code s) := by
  unfold pushAlarm
  split
  · exact State.hostWrites_of_eq rfl rfl rfl rfl rfl
  · exact ⟨rfl, rfl, rfl, rfl, rfl, id, fun _ => rfl⟩

/-- A code for the ring moves the write pointer, not the read pointer (43_key_buffer R221). -/
theorem pushRing_hostWrites (code : Byte) (s : State) : s.HostWrites (pushRing code s) := by
  unfold pushRing
  split <;> exact State.hostWrites_of_eq rfl rfl rfl rfl rfl

theorem pushKey_hostWrites (code : Byte) (s : State) : s.HostWrites (pushKey code s) := by
  unfold pushKey
  split
  · exact pushAlarm_hostWrites code s
  · exact pushRing_hostWrites code s

/-- A request writes the Acoustic Sequencer only (42_acoustic R194). -/
theorem acRequest_hostWrites (r : Option Request) (s : State) : s.HostWrites (acRequest r s) :=
  State.hostWrites_of_eq (acRequest_smp s r) (acRequest_enc s r) (by rw [acRequest_kb]) (by rw [acRequest_ctl])
    (acRequest_alm s r)

/-- `OVF_READ` writes the flag only (43_key_buffer R224). -/
theorem clearOverflow_hostWrites (clear : Bool) (s : State) : s.HostWrites (clearOverflow clear s) := by
  rw [clearOverflow_eq]
  exact State.hostWrites_of_eq rfl rfl rfl rfl rfl

/-- The host's side of the state is all that its operations but `INITIALIZE` write (60_exceptions R286). -/
theorem effectOf_hostWrites {i : Instr} (hagent : i.agent = .host) (hinit : ∀ a b c, i ≠ .initialise a b c) (s : State) :
    s.HostWrites (effectOf i s).1 := by
  cases i with
  | initialise a b c => exact absurd rfl (hinit a b c)
  | start trace => exact startBlock_hostWrites trace s
  | poll => exact pollFrame_hostWrites s
  | push code => exact pushKey_hostWrites code s
  | reqBeep | reqTone | reqBuzzer => exact acRequest_hostWrites _ s
  | keyRead | frameRead | indRead => exact .refl s
  | keyClear => exact State.hostWrites_of_eq rfl rfl rfl rfl rfl
  | ovfRead clear => exact clearOverflow_hostWrites clear s
  | clockEdge | advance | silenceTimeout | acousticBoundary | frameComplete | pop => cases hagent

/-! ### What the bus and the ISR leave to the host -/

/-- From `s` to `t` the bus and the ISR have written at most their own side of the state (60_exceptions R286): of the Key
Buffer, `KB_RD`; of the control registers, `NOW`; `FRAME_READY` set and `ALARM_DETECTED` cleared. -/
structure State.BusWrites (s t : State) : Prop where
  kb : t.kb = { s.kb with rd := t.kb.rd }
  itp : t.itp = s.itp
  ctl : t.ctl = { s.ctl with now := t.ctl.now }
  code : t.alm.code = s.alm.code
  ready : s.smp.frameReady = true → t.smp.frameReady = true
  detected : s.alm.detected = false → t.alm.detected = false

/-- A change elsewhere in the state keeps to the side of the bus and the ISR. -/
theorem State.busWrites_of_eq {s t : State} (hkb : t.kb = s.kb) (hitp : t.itp = s.itp) (hctl : t.ctl = s.ctl)
    (halm : t.alm = s.alm) (hready : t.smp.frameReady = s.smp.frameReady) : s.BusWrites t where
  kb := by rw [hkb]
  itp := hitp
  ctl := by rw [hctl]
  code := by rw [halm]
  ready := hready.trans
  detected := by rw [halm]; exact id

theorem State.BusWrites.refl (s : State) : s.BusWrites s := State.busWrites_of_eq rfl rfl rfl rfl rfl

theorem State.BusWrites.trans {s t u : State} (hst : s.BusWrites t) (htu : t.BusWrites u) : s.BusWrites u where
  kb := htu.kb.trans (congrArg (fun k : KeyBuffer => { k with rd := u.kb.rd }) hst.kb)
  itp := htu.itp.trans hst.itp
  ctl := htu.ctl.trans (congrArg (fun c : Control => { c with now := u.ctl.now }) hst.ctl)
  code := htu.code.trans hst.code
  ready := fun hset => htu.ready (hst.ready hset)
  detected := fun hfree => htu.detected (hst.detected hfree)

/-- Of the Key Buffer, a pop writes the read pointer only (43_key_buffer R222). -/
theorem popKey_busWrites (s : State) : s.BusWrites (popKey s) := by
  unfold popKey
  split
  · exact State.busWrites_of_eq rfl rfl rfl rfl rfl
  · exact ⟨rfl, rfl, rfl, rfl, id, id⟩

/-- The end of a press pops the ring or frees the alarm slot (41_key_encoder R165). -/
theorem retireKey_busWrites (s : State) : s.BusWrites (retireKey s) := by
  unfold retireKey
  split
  · exact (popKey_busWrites s).trans (State.busWrites_of_eq rfl rfl rfl rfl rfl)
  · split
    · exact ⟨rfl, rfl, rfl, rfl, id, fun _ => rfl⟩
    · exact .refl s

/-- The encoder's action in a panel window releases the line, and may end a press (41_key_encoder R164). -/
theorem encEven_busWrites (s : State) : s.BusWrites (encEven s) := by
  have hrelease : s.BusWrites (releaseKey s) := State.busWrites_of_eq rfl rfl rfl rfl rfl
  unfold encEven
  split
  · exact (hrelease.trans (retireKey_busWrites _)).trans (State.busWrites_of_eq rfl rfl rfl rfl rfl)
  · exact hrelease

/-- An edge may end a press in a panel window and complete the frame in a module window (40_bus_sampler R131). -/
theorem clockEdge_busWrites (data : Bool) (s : State) : s.BusWrites (clockEdge data s) := by
  cases hrun : s.ctl.running with
  | false =>
    rw [clockEdge_idle data hrun]
    exact .refl s
  | true =>
    rcases Nat.mod_two_eq_zero_or_one s.smp.cyc.toNat with heven | hodd
    · have hstamp : s.BusWrites (stampEdge s) := State.busWrites_of_eq rfl rfl rfl rfl rfl
      rw [clockEdge_panel data hrun heven]
      exact (hstamp.trans (encEven_busWrites _)).trans (State.busWrites_of_eq rfl rfl rfl rfl rfl)
    · by_cases hlast : s.smp.bitCnt + 1#5 = s.smp.expBits
      · rw [clockEdge_last_eq data hrun hodd hlast]
        exact ⟨rfl, rfl, rfl, rfl, fun _ => rfl, id⟩
      · rw [clockEdge_module_eq data hrun hodd hlast]
        exact State.busWrites_of_eq rfl rfl rfl rfl rfl

/-- `ADVANCE` moves `NOW`, and what it fires stays on the bus's side (40_bus_sampler R140). -/
theorem advanceTime_busWrites (dt : BitVec 24) (s : State) : s.BusWrites (advanceTime dt s) where
  kb := by rw [advanceTime_kb]
  itp := advanceTime_itp s dt
  ctl := by rw [advanceTime, advanceLoop_ctl]; rfl
  code := by rw [advanceTime_alm]
  ready := by rw [advanceTime_smp_frame]; exact id
  detected := by rw [advanceTime_alm]; exact id

/-- The frame completion sets `FRAME_READY` and leaves the alarm slot alone (40_bus_sampler R135, 41_key_encoder R168). -/
theorem fireFrameComplete_busWrites (s : State) : s.BusWrites (fireFrameComplete s) := by
  rw [fireFrameComplete_eq]
  exact ⟨rfl, rfl, rfl, rfl, fun _ => rfl, id⟩

/-- The other side of the state is all that the operations of the bus and the ISR write (60_exceptions R286). -/
theorem effectOf_busWrites {i : Instr} (hagent : i.agent ≠ .host) (s : State) : s.BusWrites (effectOf i s).1 := by
  cases i with
  | clockEdge data => exact clockEdge_busWrites data s
  | advance dt => exact advanceTime_busWrites dt s
  | silenceTimeout | acousticBoundary => exact State.busWrites_of_eq rfl rfl rfl rfl rfl
  | frameComplete => exact fireFrameComplete_busWrites s
  | pop => exact popKey_busWrites s
  | _ => exact absurd rfl hagent

/-- Settles O59: each context keeps to its own side of the state, and none writes the configuration. -/
theorem contextsWriteOnlyTheirOwnState : Obligations.ContextsWriteOnlyTheirOwnState := by
  intro i s t hexec
  obtain ⟨-, -, rfl⟩ := exec_eq_next.1 hexec
  refine ⟨effectOf_cfg i _, effectOf_inputs i _, fun hagent hinit => ?_, fun hagent => ?_⟩
  · obtain ⟨hsmp, henc, hrd, hnow, halm, hready, hdetected⟩ := effectOf_hostWrites hagent hinit (s.withFired [])
    exact ⟨hsmp, henc, hrd, hnow, halm, hready, hdetected⟩
  · obtain ⟨hkb, hitp, hctl, hcode, hready, hdetected⟩ := effectOf_busWrites hagent (s.withFired [])
    exact ⟨hkb, hitp, hctl, hcode, hready, hdetected⟩

end Sys2Proof.Machine

/-! PROOFS. Reset (70_reset_and_hazards R310, 93_implementation_defined U15): the encodings that never occur, the reset values,
and the invariant at reset. -/

namespace Sys2Proof.Machine

open Sys2Proof.Statements

/-! ### Encodings that never occur -/

/-- A state with an encoding that never occurs gives no operation a meaning (U15). -/
theorem exec_unformed (i : Instr) {s : State} (hv : s.cfg.valid = true) (hf : s.formed = false) :
    exec i s = .refused .unreachableState := by
  rw [exec_eq_operate_effectOf, operate_unformed hv hf]

/-- No well-formed request in flight has length zero (42_acoustic R195, U15). -/
theorem Acoustic.n_ne_zero_of_formed {a : Acoustic} (hf : a.formed = true) (hty : a.acType ≠ .none) : a.n ≠ 0#8 := by
  unfold Acoustic.formed at hf
  cases h : a.acType with
  | none => exact absurd h hty
  | beep | tone | buzzer =>
    simp only [h, Bool.and_eq_true, decide_eq_true_eq] at hf
    simp [hf]

/-- Settles O7: each of the listed encodings breaks a clause of the check that every operation makes. -/
theorem encodingThatNeverOccursIsRefused : Obligations.EncodingThatNeverOccursIsRefused := by
  intro i s hv hbad
  refine exec_unformed i hv (Bool.eq_false_iff.2 fun hf => ?_)
  obtain ⟨hbit, ⟨hwr, hrd, hcount⟩, hac⟩ := State.formed_iff.1 hf
  rcases hbad with hbad | hbad | hbad | hbad | ⟨hty, hzero⟩
  · omega
  · omega
  · omega
  · omega
  · exact Acoustic.n_ne_zero_of_formed hac hty hzero

/-! ### Reset values -/

/-- The reset values of R310 are those of the sub-blocks' own reset records. -/
theorem atReset_of_eq {s : State} (hsmp : s.smp = .reset) (henc : s.enc = .reset) (halm : s.alm = .reset)
    (hkb : s.kb = .reset) (hac : s.ac = .reset) (hitp : s.itp = .reset) : AtReset s := by
  rw [AtReset, hsmp, henc, halm, hkb, hac, hitp]
  exact ⟨rfl, rfl, rfl, fun _ => rfl, rfl, rfl, rfl, rfl, fun j => Vector.getElem_replicate j.isLt, rfl, rfl, rfl, rfl,
    rfl, rfl⟩

/-- While the block is not running both outputs are idle (41_key_encoder R170, 42_acoustic R203). -/
theorem outputs_of_idle {s : State} (hrun : s.ctl.running = false) : s.wr = false ∧ s.toneCont = false := by
  simp [State.wr, State.toneCont, hrun]

/-- Settles O8: power-on and `INITIALIZE` both put the reset record of each sub-block in place. -/
theorem resetHasTheStatedValues : Obligations.ResetHasTheStatedValues := by
  refine ⟨fun c => ⟨rfl, atReset_of_eq rfl rfl rfl rfl rfl rfl, outputs_of_idle rfl⟩, fun s a b c hready => ?_⟩
  refine completes_iff.2 ⟨hready, rfl, rfl, atReset_of_eq rfl rfl rfl rfl rfl rfl, outputs_of_idle rfl⟩

/-! ### The invariant at reset -/

/-- Power-on differs from `INITIALIZE` in the control registers only, and is not yet bound (45_control R270). -/
theorem resetWith_inv {c : Config} (hv : c.valid = true) : (State.resetWith c).Inv := by
  obtain ⟨hs, -⟩ := State.inv_iff.1 (initialiseBlock_inv 0 0 0 (s := State.resetWith c) hv)
  refine State.inv_iff.2 ⟨{ hs with life := ?_ }, fun hrun => (nomatch hrun), fun hty => absurd rfl hty⟩
  exact ⟨fun hrun => (nomatch hrun), fun _ => ⟨rfl, rfl, rfl, rfl⟩, fun _ => rfl⟩

/-- Settles O9: the machine's own reset state is the one with the spec's test configuration, which is valid. -/
theorem resetSatisfiesTheInvariant : Obligations.ResetSatisfiesTheInvariant :=
  ⟨fun _ => resetWith_inv, rfl, resetWith_inv (by decide)⟩

end Sys2Proof.Machine

/-! PROOFS. Runs (00_scope R6): what several operations in a row keep, and what they bring about together. -/

namespace Sys2Proof.Machine

/-! ### One operation -/

/-- What an operation answers is what it was shown to complete with. -/
theorem Completes.of_exec {i : Instr} {s t : State} {post : State → Prop} (h : Completes i s post)
    (hexec : exec i s = .next t) : post t := by
  obtain ⟨u, hexec', hpost⟩ := h
  rw [hexec] at hexec'
  cases hexec'
  exact hpost

theorem Completes.mono {i : Instr} {s : State} {post post' : State → Prop} (hpost : ∀ t, post t → post' t)
    (h : Completes i s post) : Completes i s post' := by
  obtain ⟨t, hexec, ht⟩ := h
  exact ⟨t, hexec, hpost t ht⟩

/-- An operation answers one state, so two postconditions hold of the same one. -/
theorem Completes.and {i : Instr} {s : State} {post post' : State → Prop} (h : Completes i s post)
    (h' : Completes i s post') : Completes i s fun t => post t ∧ post' t := by
  obtain ⟨t, hexec, ht⟩ := h
  exact ⟨t, hexec, ht, h'.of_exec hexec⟩

theorem Completes.of_eq_next {i : Instr} {s t : State} {post : State → Prop} (hexec : exec i s = .next t)
    (h : post t) : Completes i s post := ⟨t, hexec, h⟩

/-- An operation that a stimulus word carries completes, and keeps the invariant (60_exceptions R280). -/
theorem completes_inv {i : Instr} (hi : i.wellFormed = true) {s : State} (h : s.Inv) : Completes i s State.Inv :=
  completes_iff.2 ⟨h.ready, effectOf_inv hi (s := s.withFired []) h⟩

end Sys2Proof.Machine

/-! PROOFS. The laws of the Key Buffer (43_key_buffer R225, R226): what each operation does to the content of the ring. -/

namespace Sys2Proof.Machine

/-! ### The content after a push -/

/-- An accepted push appends its code (43_key_buffer R221, R225). -/
theorem pushRing_queue {code : Byte} {s : State} (hv : s.cfg.valid = true) (hwf : s.kb.mem.wf = true)
    (h : s.PointersInRange) (hfree : s.kbCount < s.cfg.kbCapacity) : (pushRing code s).queue = s.queue ++ [code] := by
  have hold : (List.range s.kbCount).map (pushRing code s).entry = s.queue :=
    List.map_congr_left fun k hk => by
      have hlt := List.mem_range.1 hk
      exact (pushRing_entry hwf h hfree hlt.le).trans (if_neg hlt.ne)
  rw [State.queue_eq_map_entry, pushRing_kbCount code hv h hfree, List.range_succ, List.map_append, hold,
    List.map_singleton, pushRing_entry hwf h hfree le_rfl, if_pos rfl]

/-- A code rejected by the full ring leaves its content (43_key_buffer R221). -/
theorem pushRing_queue_of_full (code : Byte) {s : State} (hfull : s.kbCount = s.cfg.kbCapacity) :
    (pushRing code s).queue = s.queue := by
  rw [pushRing_of_full code hfull]
  rfl

/-- An alarm code, accepted or not, leaves the content of the ring (43_key_buffer R221). -/
theorem pushAlarm_queue (code : Byte) (s : State) : (pushAlarm code s).queue = s.queue := by
  unfold pushAlarm; split <;> rfl

theorem State.length_queue (s : State) : s.queue.length = s.kbCount := by
  rw [State.queue_eq_map_entry, List.length_map, List.length_range]

theorem pushKey_queue {code : Byte} {s : State} (h : s.Inv) (hcode : s.cfg.keyClass code ≠ .alarm)
    (hfree : s.kbCount < s.cfg.kbCapacity) : (pushKey code s).queue = s.queue ++ [code] := by
  obtain ⟨hs, -⟩ := State.inv_iff.1 h
  rw [pushKey_of_not_alarm hcode]
  exact pushRing_queue hs.valid hs.storage.1 (State.ringHolds_iff.1 hs.ring).1 hfree

/-! ### The content after an edge -/

/-- An edge that closes no response window leaves the Key Buffer (41_key_encoder R164). -/
theorem clockEdge_kb_of_open (data : Bool) {s : State} (hrun : s.ctl.running = true)
    (hopen : ¬ (s.smp.cyc.toNat % 2 = 0 ∧ s.smp.bitCnt = 8#5 ∧ s.enc.txWindow = true)) :
    (clockEdge data s).kb = s.kb := by
  rcases Nat.mod_two_eq_zero_or_one s.smp.cyc.toNat with heven | hodd
  · rw [clockEdge_panel_eq data hrun heven fun hclose => hopen ⟨heven, hclose⟩]
  · simp [clockEdge_module data hrun hodd]

/-- With agreeing cursors the edge that closes a response window is the one taken at `CYC = 16` (41_key_encoder R164). -/
theorem cyc_of_closing {s : State} (hcur : s.CursorsAgree) (heven : s.smp.cyc.toNat % 2 = 0) (hbit : s.smp.bitCnt = 8#5) :
    s.smp.cyc = 16#5 := by
  obtain ⟨-, hhalf, -⟩ := hcur
  rw [hbit] at hhalf
  apply BitVec.eq_of_toNat_eq
  simp only [BitVec.toNat_ofNat] at hhalf ⊢
  omega

/-- The edge that closes a response window pops the head of the ring, which is the key it was sending, or leaves the ring
(41_key_encoder R165). -/
theorem completes_closing_queue {s : State} (data : Bool) (h : s.Inv) (hrun : s.ctl.running = true)
    (hcyc : s.smp.cyc = 16#5) (hwin : s.enc.txWindow = true) : Completes (.clockEdge data) s fun t =>
      t.queue = s.queue ∨ ∃ k : Byte, s.queue = k :: t.queue ∧ t.fired = [.pop s.ctl.now (some k)] := by
  obtain ⟨hs, -⟩ := State.inv_iff.1 h
  obtain ⟨t, hexec, hframe, hfifo, halarm⟩ := windowCloseEdgeRetiresTheKey s data h hrun hcyc hwin
  have hcfg : t.cfg = s.cfg := by rw [hframe]
  refine ⟨t, hexec, ?_⟩
  cases hsrc : s.enc.txSrc with
  | none => exact absurd hsrc (hs.window.1 hwin).1
  | alarm => exact .inl (queue_of_eq hcfg (halarm hsrc).1)
  | fifo =>
    obtain ⟨hmet, hheld⟩ := hfifo hsrc
    have hpopped : s.cfg.keyClass s.enc.txKey = .short ∨ s.cfg.longHoldUs ≤ (s.ctl.now - s.enc.txT0).toNat →
        ∃ k : Byte, s.queue = k :: t.queue ∧ t.fired = [.pop s.ctl.now (some k)] := fun hend =>
      have ⟨_, hqueue, _, hfired⟩ := hmet hend
      ⟨_, hqueue, hfired⟩
    cases hclass : s.cfg.keyClass s.enc.txKey with
    | short => exact .inr (hpopped (.inl hclass))
    | alarm => exact absurd hclass (keyClass_of_fifo hs.ring hs.press hsrc)
    | long =>
      rcases Nat.lt_or_ge (s.ctl.now - s.enc.txT0).toNat s.cfg.longHoldUs with hlt | hge
      · exact .inl (queue_of_eq hcfg (hheld hclass hlt).2.1)
      · exact .inr (hpopped (.inr hge))

/-- An edge leaves the content of the ring or pops its head (41_key_encoder R165, 43_key_buffer R225). -/
theorem completes_clockEdge_queue {s : State} (data : Bool) (h : s.Inv) : Completes (.clockEdge data) s fun t =>
      t.queue = s.queue ∨ ∃ k : Byte, s.queue = k :: t.queue ∧ t.fired = [.pop s.ctl.now (some k)] := by
  by_cases hclose : s.ctl.running = true ∧ s.smp.cyc.toNat % 2 = 0 ∧ s.smp.bitCnt = 8#5 ∧ s.enc.txWindow = true
  · obtain ⟨hrun, heven, hbit, hwin⟩ := hclose
    exact completes_closing_queue data h hrun (cyc_of_closing h.2.1 heven hbit) hwin
  · refine completes_iff.2 ⟨h.ready, .inl (queue_of_eq (clockEdge_cfg _ data) ?_)⟩
    change (clockEdge data (s.withFired [])).kb = (s.withFired []).kb
    cases hrun : s.ctl.running with
    | false => rw [clockEdge_idle data (s := s.withFired []) hrun]
    | true => exact clockEdge_kb_of_open data (s := s.withFired []) hrun fun hend => hclose ⟨hrun, hend⟩

/-- The operations other than `PUSH`, `POP`, an edge and `INITIALIZE` leave the content of the ring (43_key_buffer
R225). -/
theorem effectOf_queue {i : Instr} (hinit : ∀ a b c, i ≠ .initialise a b c) (hpush : ∀ code, i ≠ .push code)
    (hpop : i ≠ .pop) (hedge : ∀ data, i ≠ .clockEdge data) (s : State) : (effectOf i s).1.queue = s.queue := by
  by_cases hread : ∃ clear, i = .ovfRead clear
  · obtain ⟨clear, rfl⟩ := hread
    rw [effectOf, readOverflow_fst, clearOverflow_eq]
    rfl
  · exact queue_of_eq (effectOf_cfg i s)
      (effectOf_kb hinit hpush hpop (fun clear heq => hread ⟨clear, heq⟩) hedge s)

/-- Settles O44: a push appends or is rejected, a pop and the closing edge take the head, the rest leaves the ring. -/
theorem keyBufferIsAFifo : Obligations.KeyBufferIsAFifo := by
  intro s hinv
  refine ⟨fun code hcode hfree => completes_iff.2 ⟨hinv.ready, ?_⟩, fun code hrejected => completes_iff.2 ⟨hinv.ready, ?_⟩,
    fun h q hqueue => ?_, fun data t hexec => (completes_clockEdge_queue data hinv).of_exec hexec,
    fun i t hexec hpush hpop hedge hinit => ?_⟩
  · exact pushKey_queue (s := s.withFired []) hinv hcode hfree
  · change (pushKey code (s.withFired [])).queue = (s.withFired []).queue
    by_cases halarm : s.cfg.keyClass code = .alarm
    · rw [pushKey_of_alarm (s := s.withFired []) halarm, pushAlarm_queue]
    · rw [pushKey_of_not_alarm (s := s.withFired []) halarm,
        pushRing_queue_of_full code (s := s.withFired []) (hrejected.resolve_left halarm)]
  · obtain ⟨t, hexec, hframe, htail⟩ := (popReturnsTheOldestEntry s hinv.ready).2 h q hqueue
    exact ⟨t, hexec, by rw [hframe], htail⟩
  · obtain ⟨-, -, rfl⟩ := exec_eq_next.1 hexec
    exact effectOf_queue hinit hpush hpop hedge (s.withFired [])

/-! ### The capacity -/

theorem pushRing_overflow_of_free (code : Byte) {s : State} (hfree : s.kbCount < s.cfg.kbCapacity) :
    (pushRing code s).kb.overflow = s.kb.overflow := by
  rw [pushRing_of_free code hfree]
  rfl

/-- A push of a code that the ring has room for, with all that it keeps (43_key_buffer R221). -/
theorem completes_push {code : Byte} {s : State} (h : s.Inv) (hcode : s.cfg.keyClass code ≠ .alarm)
    (hfree : s.kbCount < s.cfg.kbCapacity) : Completes (.push code) s fun t =>
      t.Inv ∧ t.cfg = s.cfg ∧ t.queue = s.queue ++ [code] ∧ t.kb.overflow = s.kb.overflow := by
  refine (completes_inv rfl h).and (completes_iff.2 ⟨h.ready, pushKey_cfg _ code,
    pushKey_queue (s := s.withFired []) h hcode hfree, ?_⟩)
  rw [effectOf, silent, pushKey_of_not_alarm (s := s.withFired []) hcode]
  exact pushRing_overflow_of_free code (s := s.withFired []) hfree

/-- Pushes that the ring has room for append their codes, in order, and leave `OVERFLOW` (43_key_buffer R221, R226). -/
theorem runsTo_push {codes : List Byte} {s : State} (h : s.Inv) (hroom : s.kbCount + codes.length ≤ s.cfg.kbCapacity)
    (hclass : ∀ code ∈ codes, s.cfg.keyClass code ≠ .alarm) : RunsTo (codes.map .push) s fun t =>
      t.Inv ∧ t.cfg = s.cfg ∧ t.queue = s.queue ++ codes ∧ t.kb.overflow = s.kb.overflow := by
  induction codes generalizing s with
  | nil => exact ⟨h, rfl, (List.append_nil _).symm, rfl⟩
  | cons code codes ih =>
    obtain ⟨hcode, hcodes⟩ := List.forall_mem_cons.1 hclass
    rw [List.length_cons] at hroom
    refine (completes_push h hcode (by omega)).mono fun u ⟨hinv, hcfg, hqueue, hflag⟩ => ?_
    have hcount : u.kbCount = s.kbCount + 1 := by
      rw [← State.length_queue, hqueue, List.length_append, State.length_queue, List.length_singleton]
    refine (ih hinv (by rw [hcfg]; omega) (by rwa [hcfg])).mono fun t ⟨htinv, htcfg, htqueue, htflag⟩ => ?_
    exact ⟨htinv, htcfg.trans hcfg, by rw [htqueue, hqueue, List.append_assoc, List.singleton_append],
      htflag.trans hflag⟩

/-- Settles O45: the ring takes as many codes as it has room for, and the next one finds it full. -/
theorem capacityPlusOnePushesOverflow : Obligations.CapacityPlusOnePushesOverflow := by
  intro s codes last hinv hempty hflag hlength hclass
  obtain ⟨hlast, hcodes⟩ := List.forall_mem_cons.1 hclass
  refine (runsTo_push hinv (by omega) hcodes).mono fun t ⟨htinv, hcfg, hqueue, hflag'⟩ => ?_
  rw [State.queue_eq_nil_iff.2 hempty, List.nil_append] at hqueue
  have hfull : t.kbCount = t.cfg.kbCapacity := by rw [← State.length_queue, hqueue, hlength, hcfg]
  rw [← hcfg] at hlast
  refine ⟨hqueue, hflag'.trans hflag, completes_iff.2 ⟨htinv.ready, ?_⟩⟩
  rw [effectOf, silent, pushKey_of_not_alarm (s := t.withFired []) hlast,
    pushRing_of_full last (s := t.withFired []) hfull]
  exact ⟨hqueue, rfl⟩

end Sys2Proof.Machine

/-! PROOFS. Whole frames (40_bus_sampler R144, R145; 44_frame_interpreter R251): what a `FRAME` leaves for the host, a frame
cut short by silence, and the Ready light from reset. -/

namespace Sys2Proof.Machine

open Sys2Proof.Statements

/-! ### The edges of a frame cycle, with what they carry along -/

theorem completes_advance_edgesTaken {c : Config} {d : Nat → Bool} {n : Nat} {dt : BitVec 24} {s : State}
    (hdt : dt.toNat ≤ c.silenceWindowUs) (h : EdgesTaken c d n s) (hnow : EdgeIsNow n s) :
    Completes (.advance dt) s (EdgesTaken c d n) :=
  completes_iff.2 ⟨h.ready, (advanceTime_edgesTaken hdt (h.withFired []) hnow).withResult 0⟩

theorem completes_clockEdge_edgesTaken {c : Config} {d : Nat → Bool} {n : Nat} {s : State} (hn : n < 32)
    (h : EdgesTaken c d n s) :
    Completes (.clockEdge (d n)) s fun t => EdgesTaken c d (n + 1) t ∧ EdgeIsNow (n + 1) t :=
  have ⟨hedge, hnow⟩ := clockEdge_edgesTaken hn (h.withFired [])
  completes_iff.2 ⟨h.ready, hedge.withResult 0, hnow⟩

/-- What time up to the silence window keeps and each edge takes one step further holds after any number of edges of an
aligned frame cycle. -/
theorem runsTo_edgesOf_induction {P : Nat → State → Prop} {d : Nat → Bool} {dt : Nat → BitVec 24} {s : State} {n : Nat}
    (hinv : s.Inv) (hrun : s.ctl.running = true) (hcyc : s.smp.cyc = 0#5) (hn : n ≤ 32)
    (hdt : ∀ j < n, (dt j).toNat ≤ s.cfg.silenceWindowUs) (hstart : P 0 s)
    (hadvance : ∀ k < n, ∀ t : State, t.Inv → EdgesTaken s.cfg d k t → EdgeIsNow k t → P k t →
      Completes (.advance (dt k)) t (P k))
    (hedge : ∀ k < n, ∀ t : State, t.Inv → EdgesTaken s.cfg d k t → P k t → Completes (.clockEdge (d k)) t (P (k + 1))) :
    RunsTo (edgesOf d dt n) s fun t => t.Inv ∧ EdgesTaken s.cfg d n t ∧ EdgeIsNow n t ∧ P n t := by
  induction n with
  | zero => exact ⟨hinv, ⟨rfl, hinv.ready, hrun, hinv.2.1, placed_zero d hcyc⟩, fun h => absurd rfl h, hstart⟩
  | succ n ih =>
    rw [edgesOf_succ, runsTo_append]
    refine (ih (by omega) (fun j hj => hdt j (by omega)) (fun k hk => hadvance k (by omega))
      (fun k hk => hedge k (by omega))).mono fun t ⟨htinv, htaken, hnow, hP⟩ => ?_
    refine ((completes_inv rfl htinv).and ((completes_advance_edgesTaken (hdt n (by omega)) htaken hnow).and
      (hadvance n (by omega) t htinv htaken hnow hP))).mono fun u ⟨huinv, hutaken, huP⟩ => ?_
    refine ((completes_inv rfl huinv).and ((completes_clockEdge_edgesTaken (by omega) hutaken).and
      (hedge n (by omega) u huinv hutaken huP))).mono fun v ⟨hvinv, ⟨hvtaken, hvnow⟩, hvP⟩ => ?_
    exact ⟨hvinv, hvtaken, hvnow, hvP⟩

/-! ### The pseudo-operations as lists of edges -/

/-- The sample that a `FRAME` puts on edge `j`: panel and module bits alternate (30_encoding R111). -/
def frameSample (c0 c1 m0 m1 : Byte) (j : Nat) : Bool :=
  if j % 2 = 0 then frameBit c0 c1 (j / 2) else frameBit m0 m1 (j / 2)

theorem frameSample_even (c0 c1 m0 m1 : Byte) (k : Nat) : frameSample c0 c1 m0 m1 (2 * k) = frameBit c0 c1 k := by
  rw [frameSample, if_pos (by omega), show 2 * k / 2 = k by omega]

theorem frameSample_odd (c0 c1 m0 m1 : Byte) (k : Nat) : frameSample c0 c1 m0 m1 (2 * k + 1) = frameBit m0 m1 k := by
  rw [frameSample, if_neg (by omega), show (2 * k + 1) / 2 = k by omega]

/-- The bit positions of a `FRAME` are pairs of edges (30_encoding R111). -/
theorem flatMap_bitPosition (c0 c1 m0 m1 : Byte) (dt : BitVec 24) (n : Nat) :
    (List.range n).flatMap (bitPosition c0 c1 m0 m1 dt) = edgesOf (frameSample c0 c1 m0 m1) (fun _ => dt) (2 * n) := by
  induction n with
  | zero => rfl
  | succ n ih =>
    rw [List.range_succ, List.flatMap_append, ih, show 2 * (n + 1) = 2 * n + 1 + 1 by omega, edgesOf_succ, edgesOf_succ,
      List.append_assoc, frameSample_even, frameSample_odd]
    rfl

theorem expand_frame (c : Config) (c0 c1 m0 m1 : Byte) (dt : BitVec 24) :
    (Pseudo.frame c0 c1 m0 m1 dt).expand c = edgesOf (frameSample c0 c1 m0 m1) (fun _ => dt) 32 :=
  flatMap_bitPosition c0 c1 m0 m1 dt 16

theorem expand_edges (c : Config) (n : Nat) (d : Bool) (dt : BitVec 24) :
    (Pseudo.edges n d dt).expand c = edgesOf (fun _ => d) (fun _ => dt) n := by
  simp [Pseudo.expand, edgesOf, List.flatMap_def, List.map_const']

/-- A time that the operand of one `ADVANCE` can hold is one `ADVANCE` (30_encoding R111). -/
theorem waitOps_of_le {us : Nat} (hpos : 0 < us) (hle : us ≤ 0xFFFFFF) : waitOps us = [.advance (BitVec.ofNat 24 us)] := by
  rcases hle.lt_or_eq with hlt | rfl
  · rw [waitOps, Nat.div_eq_of_lt hlt, Nat.mod_eq_of_lt hlt, if_neg hpos.ne']
    rfl
  · rfl

/-! ### A whole frame -/

/-- Sixteen samples that spell two bytes, most significant bits first, are these bytes (20_memory R70). -/
theorem BytePair.eq_of_holdsSamples {r : BytePair} {b0 b1 : Byte} (h : r.HoldsSamples (frameBit b0 b1) 16) :
    r = ⟨b0, b1⟩ := by
  have hbits : ∀ i < 8, r.b0.getLsbD i = b0.getLsbD i ∧ r.b1.getLsbD i = b1.getLsbD i := fun i hi => by
    obtain ⟨h0, h1⟩ := h.bytes (k := 7 - i) (by omega)
    rw [show 7 - (7 - i) = i by omega] at h0 h1
    rw [frameBit, if_pos (by omega), show 7 - (7 - i) % 8 = i by omega] at h0
    rw [frameBit, if_neg (by omega), show 7 - (8 + (7 - i)) % 8 = i by omega] at h1
    exact ⟨h0, h1⟩
  have hb0 : r.b0 = b0 := BitVec.eq_of_getLsbD_eq fun i hi => (hbits i hi).1
  have hb1 : r.b1 = b1 := BitVec.eq_of_getLsbD_eq fun i hi => (hbits i hi).2
  rw [← hb0, ← hb1]

/-- The frame buffers hold four bytes that no `POLL` has consumed. -/
structure Sampler.Offers (c0 c1 m0 m1 : Byte) (p : Sampler) : Prop where
  cmd : p.cmdFrame = ⟨c0, c1⟩
  mod : p.modFrame = ⟨m0, m1⟩
  ready : p.frameReady = true

theorem EdgesTaken.offers {c : Config} {c0 c1 m0 m1 : Byte} {s : State}
    (h : EdgesTaken c (frameSample c0 c1 m0 m1) 32 s) : s.smp.Offers c0 c1 m0 m1 := by
  obtain ⟨-, hpanel, hmodule, hhanded⟩ := h.placed
  obtain ⟨hcmd, hmod, hready⟩ := hhanded rfl
  simp only [frameSample_even, frameSample_odd] at hpanel hmodule
  exact ⟨hcmd.trans (BytePair.eq_of_holdsSamples hpanel), hmod.trans (BytePair.eq_of_holdsSamples hmodule), hready⟩

/-- A well-timed `FRAME` in an aligned running block leaves its bytes in the buffers and the interpreter alone
(40_bus_sampler R131, R135). -/
theorem runsTo_frame {s : State} (c0 c1 m0 m1 : Byte) {dt : BitVec 24} (hinv : s.Inv) (hrun : s.ctl.running = true)
    (hcyc : s.smp.cyc = 0#5) (hdt : dt.toNat ≤ s.cfg.silenceWindowUs) :
    RunsTo ((Pseudo.frame c0 c1 m0 m1 dt).expand s.cfg) s fun t =>
      t.Inv ∧ t.cfg = s.cfg ∧ t.itp = s.itp ∧ t.smp.Offers c0 c1 m0 m1 := by
  rw [expand_frame]
  refine (runsTo_edgesOf_induction (P := fun _ t => t.itp = s.itp) hinv hrun hcyc le_rfl (fun _ _ => hdt) rfl
    (fun k _ t ht _ _ hitp => completes_iff.2 ⟨ht.ready, (advanceTime_itp _ dt).trans hitp⟩)
    (fun k _ t ht _ hitp => completes_iff.2 ⟨ht.ready, (clockEdge_itp _ _).trans hitp⟩)).mono ?_
  exact fun t ⟨htinv, htaken, _, hitp⟩ => ⟨htinv, htaken.cfg, hitp, htaken.offers⟩

/-- The host polls the frame that the buffers offer, reads its bytes, and no frame is left (44_frame_interpreter R241,
R246). -/
theorem completes_poll_frameRead {s : State} {c0 c1 m0 m1 : Byte} (hinv : s.Inv) (h : s.smp.Offers c0 c1 m0 m1) :
    Completes .poll s fun u => u.result = 1 ∧
      Completes .frameRead u fun v => v.result = c0 ++ c1 ++ m0 ++ m1 ∧ v.Ready ∧ v.smp.frameReady = false := by
  obtain ⟨hcmd, hmod, hready⟩ := h
  refine Completes.of_eq_next (exec_poll_of_frame hinv.ready hready) ⟨rfl, completes_iff.2 ⟨hinv.ready, ?_, hinv.ready, rfl⟩⟩
  change s.smp.frameWord = _
  rw [Sampler.frameWord, hcmd, hmod]

/-- A `POLL` with no frame ready changes nothing and answers 0 (44_frame_interpreter R241). -/
theorem completes_poll_of_none {s : State} {post : State → Prop} (hready : s.Ready) (hlow : s.smp.frameReady = false)
    (h : post (quiet s)) : Completes .poll s fun t => t.result = 0 ∧ post t :=
  Completes.of_eq_next (pollWithNothingReady s hready hlow) ⟨rfl, h⟩

/-- Settles O20: the 32 edges leave the four bytes in the buffers, and the first `POLL` consumes them. -/
theorem frameIsPolledOnceWithItsBytes : Obligations.FrameIsPolledOnceWithItsBytes := by
  intro s c0 c1 m0 m1 dt hinv hrun hcyc _ hdt
  refine (runsTo_frame c0 c1 m0 m1 hinv hrun hcyc hdt).mono fun t ⟨htinv, _, _, hoffers⟩ => ?_
  refine (completes_poll_frameRead htinv hoffers).mono fun u ⟨hone, hread⟩ => ⟨hone, ?_⟩
  refine hread.mono fun v ⟨hword, hready, hlow⟩ => ⟨hword, ?_⟩
  exact (completes_poll_of_none (post := fun _ => True) hready hlow trivial).mono fun _ hx => hx.1

/-! ### A frame cut short -/

/-- An edge before the 32nd of a frame cycle raises no flag (40_bus_sampler R136). -/
theorem clockEdge_frameReady_of_mid {c : Config} {d : Nat → Bool} {k : Nat} {s : State} (data : Bool) (hk : k < 31)
    (h : EdgesTaken c d k s) (hlow : s.smp.frameReady = false) : (clockEdge data s).smp.frameReady = false := by
  by_contra hraised
  obtain ⟨-, hodd, hlast⟩ := clockEdge_last_of_frameReady hlow (Bool.not_eq_false _ ▸ hraised)
  have hcyc := h.placed.cyc
  rw [cyc_of_last h.cursors hodd hlast, Nat.mod_eq_of_lt (by omega)] at hcyc
  exact absurd hcyc (by simp only [BitVec.toNat_ofNat]; omega)

theorem advanceTime_frameReady (dt : BitVec 24) (s : State) : (advanceTime dt s).smp.frameReady = s.smp.frameReady := by
  rw [advanceTime_smp_frame]

/-- Fewer than 32 edges of a frame cycle leave no frame to poll (40_bus_sampler R136). -/
theorem runsTo_edgesOf_low {d : Nat → Bool} {dt : Nat → BitVec 24} {s : State} {n : Nat} (hinv : s.Inv)
    (hrun : s.ctl.running = true) (hcyc : s.smp.cyc = 0#5) (hlow : s.smp.frameReady = false) (hn : n < 32)
    (hdt : ∀ j < n, (dt j).toNat ≤ s.cfg.silenceWindowUs) : RunsTo (edgesOf d dt n) s fun t =>
      t.Inv ∧ EdgesTaken s.cfg d n t ∧ EdgeIsNow n t ∧ t.smp.frameReady = false :=
  runsTo_edgesOf_induction (P := fun _ t => t.smp.frameReady = false) hinv hrun hcyc hn.le hdt hlow
    (fun k _ t ht _ _ hlow => completes_iff.2 ⟨ht.ready, (advanceTime_frameReady (dt k) _).trans hlow⟩)
    (fun k hk t ht htaken hlow => completes_iff.2
      ⟨ht.ready, clockEdge_frameReady_of_mid (d k) (by omega) (htaken.withFired []) hlow⟩)

/-- No time has passed since a stamp of now (00_scope R11). -/
theorem State.elapsed_of_now {s : State} {t : Time} (h : t = s.ctl.now) : s.elapsed t = 0 := by
  rw [h, State.elapsed, BitVec.sub_self]
  rfl

/-- Whatever `ADVANCE` fires, the time since a stamp grows by the whole operand (40_bus_sampler R140). -/
theorem advanceTime_elapsed {dt : BitVec 24} {s : State} {t : Time} (hwrap : s.elapsed t + dt.toNat < 2 ^ 32) :
    (advanceTime dt s).elapsed t = s.elapsed t + dt.toNat := by
  rw [State.elapsed, advanceTime, advanceLoop_ctl]
  exact State.elapsed_tick s dt.toNat t hwrap

/-- Time past the silence window realigns the cursors: a countdown still running would be overdue, and none ever is
(40_bus_sampler R138, R143). -/
theorem advanceTime_cyc_of_silence {s : State} {dt : BitVec 24} (hinv : s.Inv) (hrun : s.ctl.running = true)
    (harm : s.smp.silArmed = true) (hpast : s.cfg.silenceWindowUs < s.elapsed s.smp.lastEdge + dt.toNat)
    (hwrap : s.elapsed s.smp.lastEdge + dt.toNat < 2 ^ 32) : (advanceTime dt s).smp.cyc = 0#5 := by
  rcases advanceTime_smp dt s with hsmp | hsmp
  · obtain ⟨-, hurgent, -⟩ := State.inv_iff.1 (advanceTime_inv dt hinv)
    rw [hsmp, advanceTime_elapsed hwrap, advanceTime_cfg, advanceTime_running] at hurgent
    exact absurd (hurgent hrun harm) (Nat.not_le.2 hpast)
  · rw [hsmp]
    rfl

/-- `SILENCE` right after an edge leaves the block aligned and raises no flag (40_bus_sampler R138, R140). -/
theorem runsTo_silence {s : State} (hinv : s.Inv) (hrun : s.ctl.running = true) (hstamp : s.smp.lastEdge = s.ctl.now)
    (harm : s.smp.silArmed = true) (hw : s.cfg.silenceWindowUs < 0xFFFFFF) :
    RunsTo (Pseudo.silence.expand s.cfg) s fun t =>
      t.Inv ∧ t.cfg = s.cfg ∧ t.ctl.running = true ∧ t.smp.cyc = 0#5 ∧ t.smp.frameReady = s.smp.frameReady := by
  have hdt : (BitVec.ofNat 24 (s.cfg.silenceWindowUs + 1)).toNat = s.cfg.silenceWindowUs + 1 :=
    Nat.mod_eq_of_lt (by omega)
  have hzero := State.elapsed_of_now hstamp
  have hpast : s.cfg.silenceWindowUs < s.elapsed s.smp.lastEdge
      + (BitVec.ofNat 24 (s.cfg.silenceWindowUs + 1)).toNat := by omega
  rw [Pseudo.expand, waitOps_of_le (us := s.cfg.silenceWindowUs + 1) (by omega) hw]
  refine (completes_inv rfl hinv).and (completes_iff.2 ⟨hinv.ready, advanceTime_cfg _ _, ?_, ?_, ?_⟩)
  · exact (advanceTime_running _ _).trans hrun
  · exact advanceTime_cyc_of_silence (s := s.withFired []) hinv hrun harm hpast
      (show s.elapsed s.smp.lastEdge + _ < 2 ^ 32 by omega)
  · exact advanceTime_frameReady _ (s.withFired [])

/-- Settles O21: the edges raise no flag, the silence realigns the cursors, and the next `FRAME` starts aligned. -/
theorem frameAfterSilenceIsDecoded : Obligations.FrameAfterSilenceIsDecoded := by
  intro s n d c0 c1 m0 m1 dt hinv hrun hcyc hlow hdt hpos hn hw
  rw [expand_edges]
  refine (runsTo_edgesOf_low hinv hrun hcyc hlow hn fun _ _ => hdt).mono fun a ⟨hainv, htaken, hnow, halow⟩ => ?_
  obtain ⟨hstamp, harm⟩ := hnow hpos.ne'
  refine completes_poll_of_none hainv.ready halow ?_
  rw [← htaken.cfg] at hw hdt ⊢
  refine (runsTo_silence (s := quiet a) hainv htaken.running hstamp harm hw).mono
    fun b ⟨hbinv, hbcfg, hbrun, hbcyc, hblow⟩ => ?_
  refine completes_poll_of_none hbinv.ready (hblow.trans halow) ?_
  rw [show a.cfg = b.cfg from hbcfg.symm] at hdt ⊢
  refine (runsTo_frame (s := quiet b) c0 c1 m0 m1 hbinv hbrun hbcyc hdt).mono fun t ⟨htinv, _, _, hoffers⟩ => ?_
  refine (completes_poll_frameRead htinv hoffers).mono fun u ⟨hone, hread⟩ => ⟨hone, ?_⟩
  exact hread.mono fun v hv => hv.1

/-! ### The Ready light -/

/-- From reset, `INITIALIZE` and `START` leave a running block, aligned, with the interpreter at reset (45_control R271,
R272). -/
theorem completes_initialise_start {c : Config} (clockPin readPin writePin : Byte) (trace : Bool) (hv : c.valid = true) :
    Completes (.initialise clockPin readPin writePin) (State.resetWith c) fun u => Completes (.start trace) u fun s =>
      s.Inv ∧ s.cfg = c ∧ s.ctl.running = true ∧ s.smp.cyc = 0#5 ∧ s.itp = .reset := by
  have hinv := resetWith_inv hv
  refine ((completes_inv rfl hinv).and (Completes.of_eq_next (post := fun u => u = _)
    (initializeRestoresReset.2 _ clockPin readPin writePin hinv.ready) rfl)).mono fun u ⟨huinv, hu⟩ => ?_
  refine (completes_inv rfl huinv).and (Completes.of_eq_next (startArmsOnceBound.2 u trace huinv.ready) ?_)
  rw [if_pos (by rw [hu]; exact ⟨rfl, rfl⟩), hu]
  exact ⟨rfl, rfl, rfl, rfl⟩

/-- The light registers after a first `POLL` that brings the status byte `v` (44_frame_interpreter R241, R243). -/
theorem interpretFrame_registers {s : State} {c0 v m0 m1 : Byte} (hoffers : s.smp.Offers c0 v m0 m1)
    (hroute : s.cfg.lightRoute c0 = .status) (hitp : s.itp = .reset) :
    (interpretFrame s).st = ⟨v, 0⟩ ∧ (interpretFrame s).bl = ⟨0, 0⟩ := by
  rw [interpretFrame_eq, State.lit, hoffers.cmd, hroute, hitp]
  exact ⟨lights_st .status v _, lights_bl .status v _⟩

/-- The decode rule on the Ready bit alone: indicator 0 is on, every other one off (44_frame_interpreter R242). -/
theorem ind_of_readyBit {p : Interpreter} (hp : p.Decoded) (hst : p.st = ⟨1, 0⟩) (hbl : p.bl = ⟨0, 0⟩) (j : Fin 16) :
    p.ind[j] = if j = 0 then .on else .off := by
  rw [hp j, hst, hbl]
  revert j
  decide

/-- Settles O50: the first `POLL` loads the status register, and the invariant says that every indicator decodes its bits. -/
theorem readyLightFromReset : Obligations.ReadyLightFromReset := by
  intro c clockPin readPin writePin trace dt hv hdt
  refine (completes_initialise_start clockPin readPin writePin trace hv).mono fun u hu => hu.mono
    fun s ⟨hinv, hcfg, hrun, hcyc, hitp⟩ => ?_
  rw [← hcfg] at hdt ⊢
  refine (runsTo_frame _ _ _ _ hinv hrun hcyc hdt).mono fun t ⟨htinv, htcfg, htitp, hoffers⟩ => ?_
  have hroute : t.cfg.lightRoute 0x05 = .status := by
    rw [htcfg, hcfg]
    obtain ⟨-, -, -, -, -, -, -, -, -, -, hroute, -⟩ := Config.valid_iff.1 hv
    exact hroute
  obtain ⟨hst, hbl⟩ := interpretFrame_registers hoffers hroute (htitp.trans hitp)
  refine ((completes_inv rfl htinv).and (Completes.of_eq_next (post := fun v => v.result = 1 ∧ v.itp = interpretFrame t)
    (exec_poll_of_frame htinv.ready hoffers.ready) ⟨rfl, rfl⟩)).mono fun v ⟨hvinv, hone, hvitp⟩ => ?_
  rw [← hvitp] at hst hbl
  have hind := ind_of_readyBit (State.lightsHold_iff.1 (State.inv_iff.1 hvinv).1.lights).1 hst hbl
  exact ⟨hone, hind 0, fun j hj => (hind j).trans (if_neg hj), by rw [hbl]⟩

end Sys2Proof.Machine

/-! PROOFS. The assertions of a beep (42_acoustic R199): its registers until its end, and the pin that shows them. -/

namespace Sys2Proof.Machine

/-! ### A request while time passes -/

/-- The request in flight does not reach its end in less time than it has left (42_acoustic R198). -/
theorem advanceLoop_ac_of_within : ∀ (fuel rem : Nat) {s : State}, s.cfg.valid = true →
    s.elapsed s.ac.t0 + rem < s.ac.length s.cfg → (advanceLoop fuel rem s).ac = s.ac
  | 0, _, _, _, _ => rfl
  | fuel + 1, rem, s, hv, h => by
    rcases s.quietFor_or_turn rem with hquiet | ⟨r, hr, hdue⟩
    · rw [advanceLoop_of_quietFor _ hquiet, State.tick_ac]
    · have hlength := s.ac.length_lt hv
      have hnot : s.acousticDue ≠ some r := fun hac => by
        have := State.lt_acousticDue_iff.2 (fun _ => h) r hac
        omega
      have hac : (s.turn r).ac = s.ac := by rw [State.turn, fireDue_ac, if_neg hnot, State.tick_ac]
      have hel : (s.turn r).elapsed s.ac.t0 = s.elapsed s.ac.t0 + r := by
        rw [State.elapsed, State.turn_ctl]
        exact State.elapsed_tick s r _ (by omega)
      rw [advanceLoop_of_turn _ hdue hr]
      refine (advanceLoop_ac_of_within fuel _ (by rwa [State.turn_cfg]) ?_).trans hac
      rw [hac, hel, State.turn_cfg]
      omega

/-- The registers of a single request: it is in flight as it was, or it has ended and none waits. -/
def Acoustic.OnceOnly (a b : Acoustic) : Prop := b = a ∨ b.acType = .none ∧ b.qValid = false

/-- A boundary with no request waiting, and no tone in flight, ends the request (42_acoustic R198). -/
theorem Acoustic.OnceOnly.boundary {a b : Acoustic} (now : Time) (hty : a.acType ≠ .tone) (hq : a.qValid = false)
    (h : a.OnceOnly b) : a.OnceOnly (b.boundary now) := by
  have hends : b.acType ≠ .tone ∧ b.qValid = false := by
    rcases h with rfl | ⟨hnone, hq'⟩
    · exact ⟨hty, hq⟩
    · exact ⟨by simp [hnone], hq'⟩
  exact .inr (by simp [Acoustic.boundary, hends])

theorem advanceTime_onceOnly (dt : BitVec 24) {s : State} (hty : s.ac.acType ≠ .tone) (hq : s.ac.qValid = false) :
    s.ac.OnceOnly (advanceTime dt s).ac :=
  advanceLoop_induction (P := fun t => s.ac.OnceOnly t.ac) (fun _ _ ht => ht)
    (fun a b r t ht => by
      rw [fireDue_ac]
      split
      · exact ht.boundary _ hty hq
      · exact ht) _ _ (.inl rfl)

/-- A single request is in flight for exactly its length: were it in flight longer, it would be overdue, and none ever is
(40_bus_sampler R143, 42_acoustic R198). -/
theorem advanceTime_ac_of_once {dt : BitVec 24} {s : State} (hinv : s.Inv) (hty : s.ac.acType ≠ .none)
    (htone : s.ac.acType ≠ .tone) (hq : s.ac.qValid = false) (hwrap : s.elapsed s.ac.t0 + dt.toNat < 2 ^ 32) :
    if s.elapsed s.ac.t0 + dt.toNat < s.ac.length s.cfg then (advanceTime dt s).ac = s.ac
    else (advanceTime dt s).ac.acType = .none := by
  split
  next hwithin => exact advanceLoop_ac_of_within _ _ hinv.1 hwithin
  next hover =>
    refine (advanceTime_onceOnly dt htone hq).elim (fun hac => absurd ?_ hover) And.left
    obtain ⟨-, -, hurgent⟩ := State.inv_iff.1 (advanceTime_inv dt hinv)
    rw [hac, advanceTime_elapsed hwrap, advanceTime_cfg] at hurgent
    exact hurgent hty

/-! ### The waveform of a beep -/

/-- An instant of a beep lies in an assertion iff its place in its period does (42_acoustic R197). -/
theorem exists_assertion_iff {count period on e : Nat} (hperiod : 0 < period) (hon : on ≤ period) :
    (∃ i < count, i * period ≤ e ∧ e < i * period + on) ↔ e < count * period ∧ e % period < on := by
  constructor
  · rintro ⟨i, hi, hle, hlt⟩
    have hnext : (i + 1) * period ≤ count * period := Nat.mul_le_mul_right _ hi
    have hplace : e % period ≤ e - i * period := by
      rw [show e = e - i * period + i * period by omega, Nat.add_mul_mod_self_right]
      exact (Nat.mod_le _ _).trans (by omega)
    rw [Nat.add_mul, Nat.one_mul] at hnext
    omega
  · rintro ⟨hlt, hplace⟩
    have hsplit := Nat.div_add_mod' e period
    exact ⟨e / period, (Nat.div_lt_iff_lt_mul hperiod).2 hlt, by omega, by omega⟩

/-- The pin during a beep that started `e` microseconds ago, if it is still in flight (42_acoustic R197, R170). -/
theorem wr_of_beep {s : State} {count e : Nat} (hv : s.cfg.valid = true) (hrun : s.ctl.running = true)
    (hshut : s.enc.txWindow = false)
    (hac : if e < count * s.cfg.beepPeriod then s.ac.acType = .beep ∧ s.elapsed s.ac.t0 = e else s.ac.acType = .none) :
    s.wr = true ↔ ∃ i < count, i * s.cfg.beepPeriod ≤ e ∧ e < i * s.cfg.beepPeriod + s.cfg.beepOnUs := by
  obtain ⟨-, -, -, hon, -⟩ := Config.valid_bounds hv
  have hperiod : s.cfg.beepOnUs ≤ s.cfg.beepPeriod := Nat.le_add_right _ _
  rw [exists_assertion_iff (hon.trans hperiod) hperiod, State.wr_of_shut hrun hshut, State.wrAc, Acoustic.wave]
  split at hac
  next hwithin =>
    obtain ⟨hty, hel⟩ := hac
    simp [hty, hel, hwithin]
  next hover => simp [hac, hover]

/-- `ADVANCE` opens no response window (40_bus_sampler R140). -/
theorem advanceTime_txWindow (dt : BitVec 24) {s : State} (hshut : s.enc.txWindow = false) :
    (advanceTime dt s).enc.txWindow = false := by
  rcases advanceTime_enc dt s with henc | henc <;> rw [henc]
  exact hshut

/-- The block right after it has accepted a beep of `n`. -/
structure State.Beeping (n : Byte) (s : State) : Prop where
  inv : s.Inv
  running : s.ctl.running = true
  shut : s.enc.txWindow = false
  acType : s.ac.acType = .beep
  count : s.ac.n = n
  start : s.ac.t0 = s.ctl.now
  alone : s.ac.qValid = false

/-- `REQ_BEEP` in an idle sequencer starts the beep now (42_acoustic R191, R194). -/
theorem completes_reqBeep {s : State} {count : Byte} (hinv : s.Inv) (hrun : s.ctl.running = true)
    (hidle : s.ac.acType = .none) (hshut : s.enc.txWindow = false) (hcount : count ≠ 0) :
    Completes (.reqBeep count) s fun u => u.cfg = s.cfg ∧ u.Beeping (BitVec.ofNat 8 (min count.toNat 128)) := by
  refine ((completes_inv rfl hinv).and (Completes.of_eq_next (post := fun u => u = _)
    (beepRequestIsClampedQueuedOrStarted.2 s count hinv.ready) rfl)).mono fun u ⟨huinv, hu⟩ => ?_
  rw [if_neg (not_or.2 ⟨hcount, by simp [hrun]⟩), if_neg (by simp [hidle])] at hu
  subst hu
  exact ⟨rfl, huinv, hrun, hshut, rfl, rfl, rfl, rfl⟩

/-- The log takes no part in a beep. -/
theorem State.Beeping.withFired {n : Byte} {s : State} (h : s.Beeping n) (x : List Event) : (s.withFired x).Beeping n :=
  { h with }

/-- The pin of a beep after any time (42_acoustic R199). -/
theorem State.Beeping.wr_advanceTime {n : Byte} {s : State} (h : s.Beeping n) (dt : BitVec 24) :
    (advanceTime dt s).wr = true ↔ ∃ i < n.toNat,
      i * s.cfg.beepPeriod ≤ dt.toNat ∧ dt.toNat < i * s.cfg.beepPeriod + s.cfg.beepOnUs := by
  obtain ⟨hinv, hrun, hshut, hty, hcount, hstart, halone⟩ := h
  have hzero := State.elapsed_of_now hstart
  have hlength : s.ac.length s.cfg = n.toNat * s.cfg.beepPeriod := by rw [Acoustic.length, hty, hcount]
  have hwrap : s.elapsed s.ac.t0 + dt.toNat < 2 ^ 32 := by
    have := dt.isLt
    omega
  have hac := advanceTime_ac_of_once hinv (by simp [hty]) (by simp [hty]) halone hwrap
  rw [hlength, hzero, Nat.zero_add] at hac
  have hflight : if dt.toNat < n.toNat * s.cfg.beepPeriod
      then (advanceTime dt s).ac.acType = .beep ∧ (advanceTime dt s).elapsed (advanceTime dt s).ac.t0 = dt.toNat
      else (advanceTime dt s).ac.acType = .none := by
    split at hac
    next hwithin =>
      rw [if_pos hwithin, hac, advanceTime_elapsed hwrap, hzero, Nat.zero_add]
      exact ⟨hty, rfl⟩
    next hover => rwa [if_neg hover]
  have hwr := wr_of_beep (s := advanceTime dt s) (count := n.toNat) (e := dt.toNat) (by rw [advanceTime_cfg]; exact hinv.1)
    ((advanceTime_running dt s).trans hrun) (advanceTime_txWindow dt hshut) (by rwa [advanceTime_cfg])
  rwa [advanceTime_cfg] at hwr

/-- Settles O39: the beep is in flight for `min(count, 128)` periods, and the pin shows its place in its period. -/
theorem beepGivesExactlyItsAssertions : Obligations.BeepGivesExactlyItsAssertions := by
  intro s count dt hinv hrun hidle hshut hcount
  have hn : (BitVec.ofNat 8 (min count.toNat 128)).toNat = min count.toNat 128 := Nat.mod_eq_of_lt (by omega)
  refine (completes_reqBeep hinv hrun hidle hshut hcount).mono fun u ⟨hcfg, hbeep⟩ => ?_
  rw [← hn, ← hcfg]
  exact completes_iff.2 ⟨hbeep.inv.ready, (hbeep.withFired []).wr_advanceTime dt⟩

end Sys2Proof.Machine

/-! PROOFS. The press of a Short key (41_key_encoder R171): the phases it goes through in a frame cycle, and the write pin in
each of them. -/

namespace Sys2Proof.Machine

open Sys2Proof.Statements

/-! ### The phases of a press -/

/-- The pin after `j` edges of the frame cycle that sends `code`: its bits in the module windows of bit positions 0 to 7, most
significant first, and idle in the panel windows (41_key_encoder R163). -/
def keyPattern (c : Config) (code : Byte) (j : Nat) : Bool :=
  decide (j % 2 = 0 ∧ 2 ≤ j) && (code.getLsbD (8 - j / 2) == c.assertOn)

theorem keyPattern_of_panel (c : Config) (code : Byte) {j : Nat} (h : ¬ (j % 2 = 0 ∧ 2 ≤ j)) :
    keyPattern c code j = false := by
  simp [keyPattern, h]

theorem keyPattern_of_module (c : Config) (code : Byte) {k : Nat} (hodd : k % 2 = 1) :
    keyPattern c code (k + 1) = (code.getLsbD (7 - k / 2) == c.assertOn) := by
  rw [keyPattern, decide_eq_true (by omega), Bool.true_and, show 8 - (k + 1) / 2 = 7 - k / 2 by omega]

/-- `code` is the only key buffered, and nothing is being sent. -/
structure State.Waiting (code : Byte) (s : State) : Prop where
  txSrc : s.enc.txSrc = .none
  detected : s.alm.detected = false
  queue : s.queue = [code]

/-- `code` is being sent from the ring in an open response window, with the line at `bit`. -/
structure State.Sending (code : Byte) (bit : Bool) (s : State) : Prop where
  txSrc : s.enc.txSrc = .fifo
  txKey : s.enc.txKey = code
  txWindow : s.enc.txWindow = true
  wrKey : s.enc.wrKey = bit
  queue : s.queue = [code]

/-- Nothing is buffered and nothing is being sent. -/
structure State.Sent (s : State) : Prop where
  txSrc : s.enc.txSrc = .none
  queue : s.queue = []

/-- Where the press of `code` stands after `j` edges of a frame cycle (41_key_encoder R160). -/
inductive KeyPhase (c : Config) (code : Byte) (j : Nat) (s : State) : Prop where
  | waiting (hj : j < 2) (h : s.Waiting code)
  | sending (hj : 2 ≤ j ∧ j ≤ 16) (h : s.Sending code (keyPattern c code j))
  | sent (hj : j = 17) (h : s.Sent)

/-- No response window is open before the second edge of a frame cycle or after the 17th (41_key_encoder R160). -/
theorem txWindow_of_outside {s : State} (h : s.Inv) (hcyc : s.smp.cyc.toNat < 2 ∨ 16 < s.smp.cyc.toNat) :
    s.enc.txWindow = false := by
  refine Bool.eq_false_iff.2 fun hopen => ?_
  obtain ⟨-, hlo, hhi⟩ := (State.inv_iff.1 h).1.window.1 hopen
  omega

theorem wr_of_silent {s : State} (hrun : s.ctl.running = true) (hshut : s.enc.txWindow = false)
    (hac : s.ac.acType = .none) : s.wr = false := by
  rw [State.wr_of_shut hrun hshut, State.wrAc, Acoustic.wave, hac]

/-- The cursors after `k` edges of a frame cycle (10_state R24). -/
theorem EdgesTaken.position {c : Config} {d : Nat → Bool} {k : Nat} {s : State} (h : EdgesTaken c d k s) (hk : k < 32) :
    s.smp.cyc.toNat = k ∧ s.smp.bitCnt.toNat = k / 2 := by
  have hcyc := h.placed.cyc
  rw [Nat.mod_eq_of_lt hk] at hcyc
  exact ⟨hcyc, by rw [h.cursors.2.1, hcyc]⟩

/-- With a silent sequencer the pin shows the pattern of the key in every phase (41_key_encoder R170). -/
theorem KeyPhase.wr {c : Config} {code : Byte} {d : Nat → Bool} {j : Nat} {s : State} (hphase : KeyPhase c code j s)
    (hinv : s.Inv) (h : EdgesTaken c d j s) (hac : s.ac.acType = .none) : s.wr = keyPattern c code j := by
  cases hphase with
  | waiting hj _ =>
    rw [keyPattern_of_panel c code (by omega)]
    exact wr_of_silent h.running (txWindow_of_outside hinv (by have := h.position (by omega); omega)) hac
  | sending hj hsend => simp [State.wr, h.running, hsend.txWindow, hsend.wrKey]
  | sent hj _ =>
    rw [keyPattern_of_panel c code (by omega)]
    exact wr_of_silent h.running (txWindow_of_outside hinv (by have := h.position (by omega); omega)) hac

/-! ### Time that passes in a phase -/

/-- Time alone starts no request (42_acoustic R198). -/
theorem advanceTime_acType_of_none (dt : BitVec 24) {s : State} (h : s.ac.acType = .none) :
    (advanceTime dt s).ac.acType = .none :=
  advanceLoop_induction (P := fun t => t.ac.acType = .none) (fun _ _ ht => ht)
    (fun a b r t ht => by
      rw [fireDue_ac]
      split
      · rcases t.ac.boundary_cases t.ctl.now with ⟨-, hb⟩ | ⟨-, hb⟩ | ⟨-, hb⟩ <;> rw [hb]
        · exact ht
        · exact ht
      · exact ht) _ _ h

/-- Time leaves the ring and the alarm slot alone, and does not end or begin a press (40_bus_sampler R138). -/
theorem advanceTime_waiting {code : Byte} (dt : BitVec 24) {s : State} (h : s.Waiting code) :
    (advanceTime dt s).Waiting code where
  txSrc := by rw [advanceTime_enc_frame]; exact h.txSrc
  detected := by rw [advanceTime_alm]; exact h.detected
  queue := (queue_of_eq (advanceTime_cfg s dt) (advanceTime_kb s dt)).trans h.queue

/-- Right after an edge, with no request in flight, nothing falls due within the silence window (40_bus_sampler R139). -/
theorem quietFor_of_edgeIsNow {c : Config} {d : Nat → Bool} {k n : Nat} {s : State} (h : EdgesTaken c d k s)
    (hnow : EdgeIsNow k s) (hk : k ≠ 0) (hac : s.ac.acType = .none) (hn : n ≤ c.silenceWindowUs) : s.QuietFor n := by
  obtain ⟨hstamp, -⟩ := hnow hk
  have hzero := State.elapsed_of_now hstamp
  rw [← h.cfg] at hn
  exact State.quietFor_iff.2 ⟨fun _ _ => by omega, fun hty => absurd hac hty⟩

theorem KeyPhase.completes_advance {c : Config} {code : Byte} {d : Nat → Bool} {k : Nat} {dt : BitVec 24} {s : State}
    (hphase : KeyPhase c code k s) (h : EdgesTaken c d k s) (hnow : EdgeIsNow k s) (hk : k < 17)
    (hac : s.ac.acType = .none) (hdt : dt.toNat ≤ c.silenceWindowUs) :
    Completes (.advance dt) s (KeyPhase c code k) := by
  refine completes_iff.2 ⟨h.ready, ?_⟩
  cases hphase with
  | waiting hj hwait =>
    have hlater := advanceTime_waiting dt (s := s.withFired []) { hwait with }
    exact .waiting hj { hlater with }
  | sending hj hsend =>
    have hquiet : (s.withFired []).QuietFor dt.toNat := quietFor_of_edgeIsNow (h.withFired []) hnow (by omega) hac hdt
    rw [effectOf, silent, advanceTime_of_quietFor hquiet]
    exact .sending hj { hsend with }
  | sent hj _ => omega

/-! ### The edges of a phase -/

/-- A panel edge before the 17th releases the line and leaves the press alone (41_key_encoder R164). -/
theorem completes_panelEdge {c : Config} {d : Nat → Bool} {k : Nat} {s : State} (h : EdgesTaken c d k s) (hk : k < 16)
    (heven : k % 2 = 0) : Completes (.clockEdge (d k)) s fun t =>
      t.enc = { s.enc with wrKey := false } ∧ t.alm = s.alm ∧ t.queue = s.queue := by
  obtain ⟨hcyc, hbit⟩ := h.position (by omega)
  have hopen : ¬ (s.smp.bitCnt = 8 ∧ s.enc.txWindow = true) := fun ⟨h8, _⟩ => by
    rw [h8] at hbit
    simp only [BitVec.ofNat_eq_ofNat, BitVec.toNat_ofNat] at hbit
    omega
  exact Completes.of_eq_next (panelEdgeShiftsTheCommandByte.2 s (d k) h.ready h.running (by omega) hopen) ⟨rfl, rfl, rfl⟩

/-- The edge at `CYC = 1` opens the response window for the key that waits (41_key_encoder R162). -/
theorem State.Waiting.completes_opening {c : Config} {code : Byte} {d : Nat → Bool} {s : State} (hwait : s.Waiting code)
    (hinv : s.Inv) (h : EdgesTaken c d 1 s) :
    Completes (.clockEdge (d 1)) s (State.Sending code (keyPattern c code 2)) := by
  have hcyc : s.smp.cyc = 1 := BitVec.eq_of_toNat_eq (h.position (by omega)).1
  refine (windowOpenEdgeSelectsTheKey s (d 1) hinv h.running hcyc).mono fun t ⟨hframe, _, _, hfifo, _, hkey⟩ => ?_
  obtain ⟨hsrc, htx, -, hwin⟩ := hfifo hwait.txSrc (by simp [hwait.detected]) code [] hwait.queue
  have hqueue : t.queue = s.queue := by rw [hframe]; rfl
  rw [hwin, htx, Bool.true_and, h.cfg] at hkey
  exact ⟨hsrc, htx, hwin, hkey, hqueue.trans hwait.queue⟩

/-- A module edge of the window puts the next bit of the key on the line (41_key_encoder R163). -/
theorem State.Sending.completes_moduleEdge {c : Config} {code : Byte} {bit : Bool} {d : Nat → Bool} {k : Nat} {s : State}
    (hsend : s.Sending code bit) (h : EdgesTaken c d k s) (hlo : 2 ≤ k) (hhi : k < 16) (hodd : k % 2 = 1) :
    Completes (.clockEdge (d k)) s (State.Sending code (keyPattern c code (k + 1))) := by
  obtain ⟨hcyc, hbit⟩ := h.position (by omega)
  obtain ⟨hexp, -⟩ := h.cursors
  have hmid : s.smp.bitCnt + 1 ≠ s.smp.expBits := fun hfull => by
    have hnat := congrArg BitVec.toNat hfull
    rw [BitVec.toNat_add, hbit, hexp] at hnat
    simp only [BitVec.ofNat_eq_ofNat, BitVec.toNat_ofNat] at hnat
    omega
  refine ((moduleEdgeShiftsTheModuleByte s (d k) h.ready h.running (by omega) hmid).and
    (moduleEdgeDrivesTheKeyBit s (d k) h.ready h.running (by omega) (by omega))).mono fun t ⟨hframe, henc⟩ => ?_
  have hqueue : t.queue = s.queue := by rw [hframe]; rfl
  rw [hbit, hsend.txWindow, hsend.txKey, decide_eq_true (by omega), Bool.true_and, Bool.true_and, h.cfg,
    ← keyPattern_of_module c code hodd] at henc
  exact ⟨by rw [henc]; exact hsend.txSrc, by rw [henc]; exact hsend.txKey, by rw [henc]; exact hsend.txWindow, by rw [henc],
    hqueue.trans hsend.queue⟩

/-- The edge at `CYC = 16` pops a `Short` key and ends its press (41_key_encoder R165). -/
theorem State.Sending.completes_closing {c : Config} {code : Byte} {bit : Bool} {d : Nat → Bool} {s : State}
    (hsend : s.Sending code bit) (hinv : s.Inv) (h : EdgesTaken c d 16 s) (hshort : c.keyClass code = .short) :
    Completes (.clockEdge (d 16)) s State.Sent := by
  have hcyc : s.smp.cyc = 16 := BitVec.eq_of_toNat_eq (h.position (by omega)).1
  refine (windowCloseEdgeRetiresTheKey s (d 16) hinv h.running hcyc hsend.txWindow).mono fun t ⟨_, hfifo, _⟩ => ?_
  obtain ⟨hsrc, hqueue, -⟩ := (hfifo hsend.txSrc).1 (.inl (by rw [hsend.txKey, h.cfg, hshort]))
  rw [hsend.queue] at hqueue
  exact ⟨hsrc, (List.cons.inj hqueue).2.symm⟩

theorem KeyPhase.completes_clockEdge {c : Config} {code : Byte} {d : Nat → Bool} {k : Nat} {s : State}
    (hphase : KeyPhase c code k s) (hinv : s.Inv) (h : EdgesTaken c d k s) (hk : k < 17)
    (hshort : c.keyClass code = .short) : Completes (.clockEdge (d k)) s (KeyPhase c code (k + 1)) := by
  cases hphase with
  | waiting hj hwait =>
    obtain rfl | rfl : k = 0 ∨ k = 1 := by omega
    · refine (completes_panelEdge h (by omega) rfl).mono fun t ⟨henc, halm, hqueue⟩ => ?_
      exact .waiting (by omega) ⟨by rw [henc]; exact hwait.txSrc, by rw [halm, hwait.detected], hqueue.trans hwait.queue⟩
    · exact (hwait.completes_opening hinv h).mono fun t ht => .sending (by omega) ht
  | sending hj hsend =>
    by_cases hlast : k = 16
    · subst hlast
      exact (hsend.completes_closing hinv h hshort).mono fun t ht => .sent rfl ht
    · rcases Nat.mod_two_eq_zero_or_one k with heven | hodd
      · refine (completes_panelEdge h (by omega) heven).mono fun t ⟨henc, _, hqueue⟩ => ?_
        refine .sending (by omega) ⟨by rw [henc]; exact hsend.txSrc, by rw [henc]; exact hsend.txKey,
          by rw [henc]; exact hsend.txWindow, ?_, hqueue.trans hsend.queue⟩
        rw [henc, keyPattern_of_panel c code (by omega)]
      · exact (hsend.completes_moduleEdge h hj.1 (by omega) hodd).mono fun t ht => .sending (by omega) ht
  | sent hj _ => omega

/-! ### The whole press -/

/-- From a key that waits, the first 17 edges of an aligned frame cycle take the press through its phases. -/
theorem runsTo_keyPhase {code : Byte} {d : Nat → Bool} {dt : Nat → BitVec 24} {s : State} {j : Nat} (hinv : s.Inv)
    (hrun : s.ctl.running = true) (hcyc : s.smp.cyc = 0#5) (hwait : s.Waiting code) (hac : s.ac.acType = .none)
    (hshort : s.cfg.keyClass code = .short) (hj : j ≤ 17) (hdt : ∀ k < 17, (dt k).toNat ≤ s.cfg.silenceWindowUs) :
    RunsTo (edgesOf d dt j) s fun t => t.wr = keyPattern s.cfg code j ∧ KeyPhase s.cfg code j t := by
  refine (runsTo_edgesOf_induction (P := fun k t => t.ac.acType = .none ∧ KeyPhase s.cfg code k t) hinv hrun hcyc
    (by omega) (fun k hk => hdt k (by omega)) ⟨hac, .waiting (by omega) hwait⟩ ?_ ?_).mono ?_
  · intro k hk t htinv htaken hnow ⟨htac, hphase⟩
    refine Completes.and (completes_iff.2 ⟨htinv.ready, advanceTime_acType_of_none _ htac⟩) ?_
    exact hphase.completes_advance htaken hnow (by omega) htac (hdt k (by omega))
  · intro k hk t htinv htaken ⟨htac, hphase⟩
    refine Completes.and (completes_iff.2 ⟨htinv.ready, ?_⟩) (hphase.completes_clockEdge htinv htaken (by omega) hshort)
    exact (congrArg Acoustic.acType (clockEdge_ac _ _)).trans htac
  · exact fun t ⟨htinv, htaken, _, htac, hphase⟩ => ⟨hphase.wr htinv htaken htac, hphase⟩

/-- A push into an idle encoder with an empty ring leaves its key waiting, and the rest of the block alone (43_key_buffer
R221). -/
theorem completes_push_waiting {code : Byte} {s : State} (hinv : s.Inv) (hempty : s.kbCount = 0)
    (hsrc : s.enc.txSrc = .none) (hdet : s.alm.detected = false) (hcode : s.cfg.keyClass code ≠ .alarm) :
    Completes (.push code) s fun u =>
      u.Inv ∧ u.Waiting code ∧ u.cfg = s.cfg ∧ u.ctl = s.ctl ∧ u.smp = s.smp ∧ u.ac = s.ac := by
  obtain ⟨hcap, -⟩ := Config.valid_iff.1 hinv.1
  have hfree : s.kbCount < s.cfg.kbCapacity := by omega
  have hslot := pushAcceptsOrSetsOverflow.2 s code hinv.ready (State.inv_iff.1 hinv).1.storage
  refine ((completes_push hinv hcode hfree).and hslot).mono
    fun u ⟨⟨huinv, hcfg, hqueue, _⟩, hframe, _, _, _, haccepted⟩ => ?_
  obtain ⟨halm, -⟩ := haccepted hcode hfree
  rw [State.queue_eq_nil_iff.2 hempty, List.nil_append] at hqueue
  exact ⟨huinv, ⟨by rw [hframe]; exact hsrc, by rw [halm, hdet], hqueue⟩, hcfg, by rw [hframe], by rw [hframe],
    by rw [hframe]⟩

/-- Settles O32: the key waits, is sent and is popped, and the pin shows its pattern after every edge. -/
theorem shortKeyIsSentOnceAndPopped : Obligations.ShortKeyIsSentOnceAndPopped := by
  intro s code d dt hinv hrun hcyc hsrc hempty hdet hac hshort hdt
  refine (completes_push_waiting hinv hempty hsrc hdet (by simp [hshort])).mono
    fun u ⟨huinv, hwait, hcfg, hctl, hsmp, huac⟩ => ⟨hwait.queue, fun j hj => ?_⟩
  rw [← hctl] at hrun
  rw [← hsmp] at hcyc
  rw [← huac] at hac
  rw [← hcfg] at hshort hdt ⊢
  refine (runsTo_keyPhase huinv hrun hcyc hwait hac hshort hj hdt).mono fun t ⟨hwr, hphase⟩ => ⟨hwr, fun hlast => ?_⟩
  cases hphase with
  | waiting hj' _ => omega
  | sending hj' _ => omega
  | sent _ hsent => exact ⟨hsent.queue, hsent.txSrc⟩

end Sys2Proof.Machine
